-- ==== Sys2Proof/Word.lean ====
section
/-! DEFINITION. The words LCD4 handles: nibbles, bytes and request words (R12, R66, R80 of spec/). A single bit is a `Bool`. -/

namespace Sys2Proof

/-- "4-bit half of a byte" (R15): what one strobe delivers. -/
abbrev Nibble := BitVec 4

/-- An 8-bit command or data byte (R15). -/
abbrev Byte := BitVec 8

/-- A request word of format `REQ12` (R80). -/
abbrev ReqWord := BitVec 12

end Sys2Proof
end

