-- ==== Sys2Proof/Config.lean ====
section
/-! DEFINITION. The parameter record `Cfg` of R10 with its constraints of R11 (00_scope.md), its default values, and the one
free value of the model: the level of a line after a failed write (R110, U3). -/

namespace Sys2Proof

/-- The named parameters of R10. `NIBBLE_W`, `BYTE_W` and `N_LINES` are not variable (R11): they are the widths of the types and
the number of constructors of `Machine.Line`. -/
structure Cfg where
  /-- `T_POWERON` -/
  tPowerOn : Nat
  /-- `T_INIT[0]` -/
  tInit0 : Nat
  /-- `T_INIT[1]` -/
  tInit1 : Nat
  /-- `T_INIT[2]` -/
  tInit2 : Nat
  /-- `T_INIT[3]` -/
  tInit3 : Nat
  /-- `T_PW` -/
  tPw : Nat
  /-- `T_SETTLE` -/
  tSettle : Nat
  /-- `T_LONG` -/
  tLong : Nat
  /-- `TICK_NS`; no rule reads it -/
  tickNs : Nat
  /-- `DLY_W` -/
  dlyW : Nat
  /-- `INIT_NIB[0]` -/
  initNib0 : Nibble
  /-- `INIT_NIB[1]` -/
  initNib1 : Nibble
  /-- `INIT_NIB[2]` -/
  initNib2 : Nibble
  /-- `INIT_NIB[3]` -/
  initNib3 : Nibble
  /-- `CLEAR_CODE` -/
  clearCode : Byte
  /-- `DISPCTL_BASE` -/
  dispctlBase : Byte
  /-- `FUNCSET_BASE` -/
  funcsetBase : Byte
  /-- `HAS_WFAIL` -/
  hasWfail : Bool
  deriving DecidableEq, Repr

/-- The default column of R10's table. -/
def Cfg.default : Cfg where
  tPowerOn := 40000
  tInit0 := 4100
  tInit1 := 100
  tInit2 := 100
  tInit3 := 100
  tPw := 1
  tSettle := 40
  tLong := 1600
  tickNs := 1000
  dlyW := 16
  initNib0 := 0x3#4
  initNib1 := 0x3#4
  initNib2 := 0x3#4
  initNib3 := 0x2#4
  clearCode := 0x01#8
  dispctlBase := 0x08#8
  funcsetBase := 0x20#8
  hasWfail := false

/-- `T_INIT[j]` (R10). -/
def Cfg.tInit (c : Cfg) : Fin 4 → Nat
  | 0 => c.tInit0
  | 1 => c.tInit1
  | 2 => c.tInit2
  | 3 => c.tInit3

/-- `INIT_NIB[j]` (R10, R91). -/
def Cfg.initNib (c : Cfg) : Fin 4 → Nibble
  | 0 => c.initNib0
  | 1 => c.initNib1
  | 2 => c.initNib2
  | 3 => c.initNib3

/-- FREE VALUE (log 4). The level of a line after its `k`-th failed write: `draw(Bit)` of R110, "a value of type `T` under no law,
chosen by the environment" (R13). It has no body, so no proof can know a value of it. -/
opaque Config.freeLevel : Nat → Bool

end Sys2Proof
end

