-- ==== Sys2Proof/Syntax.lean ====
section
/-! DEFINITION. The instructions of LCD4: one constructor per row of spec/opcode_table.json (R83, R93). The five requests are the
terms of R83; the three controller bytes and the four handshake nibbles are the transfers the engine itself starts on the bus. -/

namespace Sys2Proof

/-- The twelve rows of the opcode table. Every operand is a `Bit` or a `Byte` (R83, R100). -/
inductive Instr where
  /-- `INIT n, f` (R130): `n` two lines, `f` 5x10 dots -/
  | init (n f : Bool)
  /-- `CMD b` (R150) -/
  | cmd (b : Byte)
  /-- `DATA b` (R151) -/
  | data (b : Byte)
  /-- `CLEAR` (R165) -/
  | clear
  /-- `DISPCTL d, c, k` (R170): power, cursor visible, blink -/
  | dispctl (d c k : Bool)
  /-- the clear-display byte on the bus (R88) -/
  | lcdClear
  /-- the display-control byte on the bus (R89) -/
  | lcdDispctl (d c k : Bool)
  /-- the function-set byte on the bus (R90) -/
  | lcdFuncset (n f : Bool)
  /-- handshake nibble 0 on the bus (R91) -/
  | lcdHs0
  /-- handshake nibble 1 on the bus (R91) -/
  | lcdHs1
  /-- handshake nibble 2 on the bus (R91) -/
  | lcdHs2
  /-- handshake nibble 3 on the bus (R91) -/
  | lcdHs3
  deriving DecidableEq, Repr

/-- The rows of format `REQ12`: what the host can offer. -/
def Instr.isRequest : Instr → Bool
  | .init _ _ => true
  | .cmd _ => true
  | .data _ => true
  | .clear => true
  | .dispctl _ _ _ => true
  | .lcdClear => false
  | .lcdDispctl _ _ _ => false
  | .lcdFuncset _ _ => false
  | .lcdHs0 => false
  | .lcdHs1 => false
  | .lcdHs2 => false
  | .lcdHs3 => false

end Sys2Proof
end

