-- ==== Sys2Proof/WellFormed.lean ====
section
/-! DEFINITION. Well-formedness. R83: "Every term of `Req` is well formed; there is no ill-formed combination of arguments", and the
operands of the bus rows are bits, so every instruction is well formed. What can be ill formed is the parameter record: `Cfg.wf` is
the constraints of R11 that the types do not already hold (`INIT_NIB[k] < 16` is the type). -/

namespace Sys2Proof

/-- R83, R96, R173(a): every combination of operands is legal. -/
def Instr.wf : Instr → Bool
  | .init _ _ => true
  | .cmd _ => true
  | .data _ => true
  | .clear => true
  | .dispctl _ _ _ => true
  | .lcdClear => true
  | .lcdDispctl _ _ _ => true
  | .lcdFuncset _ _ => true
  | .lcdHs0 => true
  | .lcdHs1 => true
  | .lcdHs2 => true
  | .lcdHs3 => true

/-- Every delay fits the delay counter: `max(T_*) < 2^DLY_W` (R10, R11). -/
def Cfg.delaysFit (c : Cfg) : Bool :=
  decide (c.tPowerOn < 2 ^ c.dlyW) && decide (c.tInit0 < 2 ^ c.dlyW) && decide (c.tInit1 < 2 ^ c.dlyW) &&
  decide (c.tInit2 < 2 ^ c.dlyW) && decide (c.tInit3 < 2 ^ c.dlyW) && decide (c.tPw < 2 ^ c.dlyW) &&
  decide (c.tSettle < 2 ^ c.dlyW) && decide (c.tLong < 2 ^ c.dlyW)

/-- "`DISPCTL_BASE` has bits 2, 1, 0 clear" (R11). -/
def Cfg.dispctlBaseClear (c : Cfg) : Bool := c.dispctlBase &&& 0x07#8 == 0x00#8

/-- "`FUNCSET_BASE` has bits 3 and 2 clear" (R11). -/
def Cfg.funcsetBaseClear (c : Cfg) : Bool := c.funcsetBase &&& 0x0C#8 == 0x00#8

/-- The constraints of R11. -/
def Cfg.wf (c : Cfg) : Bool := c.delaysFit && c.dispctlBaseClear && c.funcsetBaseClear

end Sys2Proof
end

