-- ==== Sys2Proof/Decode.lean ====
section
/-! DEFINITION. The three encodings of 30_encoding.md: request words `REQ12` (R80 to R85), the controller bytes LCD4 generates
(R88 to R90) and the handshake nibbles (R91), each with its decoder, total and rejecting by name, and its encoder. -/

namespace Sys2Proof

/-! ### The bytes LCD4 assembles -/

/-- A flag as a byte, ready to be shifted into place (R13 `b2n`, R159(b)). -/
def flagByte (b : Bool) : Byte := (BitVec.ofBool b).setWidth 8

/-- `DISPCTL_BASE | d<<2 | c<<1 | k` (R89). -/
def displayControlByte (c : Cfg) (d cur k : Bool) : Byte :=
  c.dispctlBase ||| (flagByte d <<< 2) ||| (flagByte cur <<< 1) ||| flagByte k

/-- `FUNCSET_BASE | n<<3 | f<<2` (R90). -/
def functionSetByte (c : Cfg) (n f : Bool) : Byte :=
  c.funcsetBase ||| (flagByte n <<< 3) ||| (flagByte f <<< 2)

/-- `INIT_NIB[j] ++ 0b0000` (R91, R159(c)): only the high nibble is sent. -/
def handshakeByte (c : Cfg) (j : Fin 4) : Byte := c.initNib j ++ 0x0#4

/-! ### Decoding -/

/-- Why a word spells no row. R84 knows one answer, `ILLEGAL`; the names tell the classes of R94 apart. -/
inductive Illegal where
  /-- `op` in 0x0, 0x6 to 0xF (R81) -/
  | reservedOp (op : BitVec 4)
  /-- `INIT` with a reserved `arg` bit set (R82) -/
  | initReservedBits
  /-- `CLEAR` with `arg != 0` (R82) -/
  | clearReservedBits
  /-- `DISPCTL` with a reserved `arg` bit set (R82) -/
  | dispctlReservedBits
  /-- a bus byte that is none of the three LCD4 generates (R93) -/
  | unlistedByte (b : Byte)
  /-- a nibble that is not the handshake nibble of its position (R91) -/
  | unlistedNibble (pos : Fin 4) (n : Nibble)
  deriving DecidableEq, Repr

/-- `op = word[11:8]` (R80). -/
def opField (w : ReqWord) : BitVec 4 := w.extractLsb' 8 4

/-- `arg = word[7:0]` (R80). -/
def argField (w : ReqWord) : Byte := w.extractLsb' 0 8

/-- `decode` of R84. -/
def decodeRequest (w : ReqWord) : Except Illegal Instr :=
  let a := argField w
  if opField w = 0x1#4 then
    if a.extractLsb' 4 4 = 0x0#4 ∧ a.extractLsb' 0 2 = 0#2 then .ok (.init (a.getLsbD 3) (a.getLsbD 2))
    else .error .initReservedBits
  else if opField w = 0x2#4 then .ok (.cmd a)
  else if opField w = 0x3#4 then .ok (.data a)
  else if opField w = 0x4#4 then if a = 0x00#8 then .ok .clear else .error .clearReservedBits
  else if opField w = 0x5#4 then
    if a.extractLsb' 3 5 = 0#5 then .ok (.dispctl (a.getLsbD 2) (a.getLsbD 1) (a.getLsbD 0))
    else .error .dispctlReservedBits
  else .error (.reservedOp (opField w))

/-- The `LCDBYTE` rows (R88, R89, R90, R93): masks 0xFF, 0xF8 and 0xF3. -/
def decodeBusByte (c : Cfg) (b : Byte) : Except Illegal Instr :=
  if b = c.clearCode then .ok .lcdClear
  else if b &&& 0xF8#8 = c.dispctlBase then .ok (.lcdDispctl (b.getLsbD 2) (b.getLsbD 1) (b.getLsbD 0))
  else if b &&& 0xF3#8 = c.funcsetBase then .ok (.lcdFuncset (b.getLsbD 3) (b.getLsbD 2))
  else .error (.unlistedByte b)

/-- The `LCDNIB` row of handshake position `j`. -/
def handshakeRow : Fin 4 → Instr
  | 0 => .lcdHs0
  | 1 => .lcdHs1
  | 2 => .lcdHs2
  | 3 => .lcdHs3

/-- The `LCDNIB` rows (R91). Three of the four carry the same bits; "A bus observer tells the length of a transfer from its position,
not from any bit" (R97), so the position is an argument (log 10). -/
def decodeBusNibble (c : Cfg) (pos : Fin 4) (n : Nibble) : Except Illegal Instr :=
  if n = c.initNib pos then .ok (handshakeRow pos) else .error (.unlistedNibble pos n)

/-- An instruction as it is spelled: a request word, a byte on the bus, or a nibble at its place in the handshake. -/
inductive Encoded where
  | request (w : ReqWord)
  | busByte (b : Byte)
  | busNibble (pos : Fin 4) (n : Nibble)
  deriving DecidableEq, Repr

/-- The whole decoder. -/
def decode (c : Cfg) : Encoded → Except Illegal Instr
  | .request w => decodeRequest w
  | .busByte b => decodeBusByte c b
  | .busNibble pos n => decodeBusNibble c pos n

/-- What a decoder accepted, if anything. -/
def accepted : Except Illegal Instr → Option Instr
  | .ok i => some i
  | .error _ => none

/-- The handshake position whose nibble a bare nibble is: the first that fits (log 10). -/
def firstPosition (c : Cfg) (n : Nibble) : Option (Fin 4) :=
  if n = c.initNib 0 then some 0
  else if n = c.initNib 1 then some 1
  else if n = c.initNib 2 then some 2
  else if n = c.initNib 3 then some 3
  else none

/-- How the word `w` of an opcode-table row with `nbits` bits (whole bytes, or the row's own 12, 8 or 4) is spelled. A row of 8 bits
is a controller byte if it fits one, else a handshake nibble with zeros above it. -/
def tableEncoded (nbits w : Nat) : Option Encoded :=
  if 2 ^ nbits ≤ w then none
  else if nbits ≤ 8 then
    match decodeBusByte Cfg.default (BitVec.ofNat 8 w) with
    | .ok _ => some (.busByte (BitVec.ofNat 8 w))
    | .error _ =>
      if 16 ≤ w then none
      else (firstPosition Cfg.default (BitVec.ofNat 4 w)).map (fun j => .busNibble j (BitVec.ofNat 4 w))
  else if nbits ≤ 16 then if 4096 ≤ w then none else some (.request (BitVec.ofNat 12 w))
  else none

/-- The instruction the decoder reads from a table row's word, with the default parameters the table is written for (R93). -/
def decodeTableWord (nbits w : Nat) : Option Instr :=
  match tableEncoded nbits w with
  | some e => accepted (decode Cfg.default e)
  | none => none

/-! ### Encoding -/

/-- `encode` of R85; a bus row is no request and gets the reserved word 0x000. -/
def encodeRequest : Instr → ReqWord
  | .init n f => 0x1#4 ++ ((flagByte n <<< 3) ||| (flagByte f <<< 2))
  | .cmd b => 0x2#4 ++ b
  | .data b => 0x3#4 ++ b
  | .clear => 0x400#12
  | .dispctl d c k => 0x5#4 ++ ((flagByte d <<< 2) ||| (flagByte c <<< 1) ||| flagByte k)
  | .lcdClear => 0x000#12
  | .lcdDispctl _ _ _ => 0x000#12
  | .lcdFuncset _ _ => 0x000#12
  | .lcdHs0 => 0x000#12
  | .lcdHs1 => 0x000#12
  | .lcdHs2 => 0x000#12
  | .lcdHs3 => 0x000#12

/-- The words of an instruction (R85, R88 to R91). -/
def encode (c : Cfg) : Instr → Encoded
  | .init n f => .request (encodeRequest (.init n f))
  | .cmd b => .request (encodeRequest (.cmd b))
  | .data b => .request (encodeRequest (.data b))
  | .clear => .request (encodeRequest .clear)
  | .dispctl d cur k => .request (encodeRequest (.dispctl d cur k))
  | .lcdClear => .busByte c.clearCode
  | .lcdDispctl d cur k => .busByte (displayControlByte c d cur k)
  | .lcdFuncset n f => .busByte (functionSetByte c n f)
  | .lcdHs0 => .busNibble 0 (c.initNib 0)
  | .lcdHs1 => .busNibble 1 (c.initNib 1)
  | .lcdHs2 => .busNibble 2 (c.initNib 2)
  | .lcdHs3 => .busNibble 3 (c.initNib 3)

/-- Both values of a bit. -/
def bits : List Bool := [false, true]

/-- The parameters give the three kinds of controller bytes distinct values, as the defaults do. R11 does not ask for it; only
reading a byte back off the bus needs it. -/
def Cfg.bytesDistinct (c : Cfg) : Bool :=
  bits.all (fun d => bits.all (fun cur => bits.all (fun k => displayControlByte c d cur k != c.clearCode))) &&
  bits.all (fun n => bits.all (fun f =>
    functionSetByte c n f != c.clearCode && (functionSetByte c n f &&& 0xF8#8) != c.dispctlBase))

end Sys2Proof
end

