-- ==== Sys2Proof/Machine/State.lean ====
section
/-! DEFINITION. The state of LCD4 (10_state.md): every register of R20, the ghost state of R45 to R47, the session's `DISP` (R180),
and, as plain data, the agents around the engine: what the host will still do on the request port and what the environment will
still do on `rst` and `wfail` (R49, R43). Also the reasons a step can stop, and the state after reset (R50). -/

namespace Sys2Proof.Machine

/-- The six output lines, "PinRole" of R15 and R22. -/
inductive Line where
  | rs | en | d4 | d5 | d6 | d7
  deriving DecidableEq, Repr

/-- The nine values of `PH` (R30). Values 9 to 15 are never written and have no name (log 3). -/
inductive Phase where
  | idle | pre | rsw | dw | enh | pw | enl | gap | long
  deriving DecidableEq, Repr

/-- The values of `OPC` (R24). Values 6 and 7 are never written and have no name (log 3). -/
inductive Opc where
  | none | init | cmd | data | clear | dispctl
  deriving DecidableEq, Repr

/-- The kinds of delay (R14, R35). -/
inductive WaitKind where
  | powerOn
  | init (j : Fin 4)
  | pw
  | settle
  | long
  deriving DecidableEq, Repr

/-- The events of `TRACE` (R14, R45). -/
inductive Event where
  /-- `RS(v)` -/
  | rs (v : Bool)
  /-- `D(n)`: the four data lines in one step -/
  | data (n : Nibble)
  /-- `EN(v)` -/
  | en (v : Bool)
  /-- `WAIT(k)` -/
  | wait (k : WaitKind)
  /-- `LOG(line)` -/
  | log (l : Line)
  deriving DecidableEq, Repr

/-- `DISP`, the session's copy of `DisplayState` (R180): `DISP[2] = d`, `DISP[1] = c`, `DISP[0] = k`. -/
structure Disp where
  d : Bool
  c : Bool
  k : Bool
  deriving DecidableEq, Repr

/-- The calls of the Display Session (R182, R183, R184). A text is a list of bytes already (R186, D17). -/
inductive SessionOp where
  /-- `S.DISPLAY d, c, k` -/
  | display (d c k : Bool)
  /-- `S.WRITE text` -/
  | write (text : List Byte)
  /-- `S.CLEAR` -/
  | clear
  deriving DecidableEq, Repr

/-- One thing the host does on the request port (R49, R33, R249; log 5). -/
inductive HostAct where
  /-- `req_valid = 0` for one tick -/
  | quiet
  /-- `req_valid = 1` with `w`, held until taken -/
  | offer (w : ReqWord)
  /-- `req_valid = 1` with `w` for one tick, withdrawn whether it was taken or not -/
  | glance (w : ReqWord)
  /-- a call of the Display Session; it begins when the engine is idle (log 7) -/
  | call (op : SessionOp)
  deriving DecidableEq, Repr

/-- The levels of the other inputs in one tick (R43, R110, R230): bit 0 of `wfail` is `RS`, 1 `EN`, 2 to 5 `D4` to `D7`. -/
structure EnvTick where
  rst : Bool
  wfail : BitVec 6
  deriving DecidableEq, Repr

/-- The whole state. Every 1-bit register is a `Bool` (log 3). -/
structure State where
  /-- The parameter record of R10, fixed for the machine's life (log 1). -/
  params : Cfg
  /-- Line `RS` (R21). -/
  rs : Bool
  /-- Line `EN` (R21). -/
  en : Bool
  /-- Line `D4` (R21). -/
  d4 : Bool
  /-- Line `D5` (R21). -/
  d5 : Bool
  /-- Line `D6` (R21). -/
  d6 : Bool
  /-- Line `D7` (R21). -/
  d7 : Bool
  /-- `PH` (R30). -/
  ph : Phase
  /-- `OPC` (R24). -/
  opc : Opc
  /-- `SEQ` (R25). -/
  seq : BitVec 3
  /-- `NIB` (R23): false while the high nibble is being sent. -/
  nib : Bool
  /-- `BYTE` (R23). -/
  byte : Byte
  /-- `RSQ` (R23). -/
  rsq : Bool
  /-- `ARGN` (R26). -/
  argN : Bool
  /-- `ARGF` (R26). -/
  argF : Bool
  /-- `DLY` (R35), below `2^DLY_W` (R36; log 2). -/
  dly : Nat
  /-- `INITED` (R38). -/
  inited : Bool
  /-- `CFGN` (R40). -/
  cfgN : Bool
  /-- `CFGF` (R40). -/
  cfgF : Bool
  /-- `LINEERR` (R39). -/
  lineErr : Bool
  /-- `SEQERR` (R39). -/
  seqErr : Bool
  /-- `ILLREQ` (R39). -/
  illReq : Bool
  /-- `DISP` of the session (R180). -/
  disp : Disp
  /-- Ghost `TRACE` (R45), oldest first. -/
  trace : List Event
  /-- Ghost `LAT` (R47), oldest first. -/
  lat : List (Bool × Nibble)
  /-- Ghost `NOW` (R46). -/
  now : Nat
  /-- What the host will still do, next first; the empty list offers nothing (log 5). -/
  host : List HostAct
  /-- The inputs of the coming ticks, this tick's first; an unlisted tick has no reset and no failure (log 6). -/
  env : List EnvTick
  /-- How many draws have been made; it picks the next free value (log 4). -/
  draws : Nat
  deriving DecidableEq, Repr

/-- What stops the machine with a fault: nothing. R204: a cause "never stops the engine"; R213: "There is no trap entry" (log 22). -/
inductive Fault where
  deriving DecidableEq, Repr

/-- Why the model gives no meaning. -/
inductive Refusal where
  /-- An arm of `exec` that has no meaning yet. No arm raises it. Safe: it can only leave a true claim unprovable. -/
  | notModelled (mnemonic : String)
  deriving DecidableEq, Repr

/-- The state after reset: the table of R50, the default parameters (log 1), and nobody driving the inputs (log 5, log 6). -/
def State.reset : State where
  params := Cfg.default
  rs := false
  en := false
  d4 := false
  d5 := false
  d6 := false
  d7 := false
  ph := .idle
  opc := .none
  seq := 0#3
  nib := false
  byte := 0x00#8
  rsq := false
  argN := false
  argF := false
  dly := 0
  inited := false
  cfgN := false
  cfgF := false
  lineErr := false
  seqErr := false
  illReq := false
  disp := ⟨false, false, false⟩
  trace := []
  lat := []
  now := 0
  host := []
  env := []
  draws := 0

end Sys2Proof.Machine
end

