-- ==== Sys2Proof/Machine/Flags.lean ====
section
/-! DEFINITION. The status outputs and the codes of the named values: `status[4:0]` (R37), `cfg[1:0]` (R40), `BUSY` and `req_ready`
(R33), the codes of `PH` (R30) and `OPC` (R24), the layout of `DISP` (R180). LCD4 has no arithmetic flag (R37, R159). -/

namespace Sys2Proof.Machine

/-- `BUSY = 1` exactly when `PH != IDLE` (R33, R37). -/
def State.busy (s : State) : Bool := s.ph != .idle

/-- `req_ready = 1` exactly when `PH = IDLE` (R33). -/
def State.reqReady (s : State) : Bool := s.ph == .idle

/-- `status[4:0] = ILLREQ, SEQERR, LINEERR, INITED, BUSY`, bit 4 down to bit 0 (R37). -/
def State.status (s : State) : BitVec 5 :=
  BitVec.ofBool s.illReq ++ BitVec.ofBool s.seqErr ++ BitVec.ofBool s.lineErr ++ BitVec.ofBool s.inited ++ BitVec.ofBool s.busy

/-- `cfg[1:0] = CFGN ++ CFGF` (R40). -/
def State.cfgOut (s : State) : BitVec 2 := BitVec.ofBool s.cfgN ++ BitVec.ofBool s.cfgF

/-- The value of `PH` (R30). -/
def Phase.code : Phase → BitVec 4
  | .idle => 0#4
  | .pre => 1#4
  | .rsw => 2#4
  | .dw => 3#4
  | .enh => 4#4
  | .pw => 5#4
  | .enl => 6#4
  | .gap => 7#4
  | .long => 8#4

/-- The value of `OPC` (R24). -/
def Opc.code : Opc → BitVec 3
  | .none => 0#3
  | .init => 1#3
  | .cmd => 2#3
  | .data => 3#3
  | .clear => 4#3
  | .dispctl => 5#3

/-- `DISP[2:0]` (R180). -/
def Disp.code (x : Disp) : BitVec 3 := BitVec.ofBool x.d ++ BitVec.ofBool x.c ++ BitVec.ofBool x.k

end Sys2Proof.Machine
end

