-- ==== Sys2Proof/Machine/Operands.lean ====
section
/-! DEFINITION. Operand assembly (R92, R159): the halves of a byte, the current nibble `CUR` (R23), the data nibble `DN` on the
lines (R21), the handshake position a `SEQ` value stands for (R25), and the length of each kind of delay (R35). -/

namespace Sys2Proof.Machine

/-- `hi(b) = b[7:4]` (R92). -/
def hi (b : Byte) : Nibble := b.extractLsb' 4 4

/-- `lo(b) = b[3:0]` (R92). -/
def lo (b : Byte) : Nibble := b.extractLsb' 0 4

/-- `CUR = (NIB = 0) ? BYTE[7:4] : BYTE[3:0]` (R23). -/
def State.cur (s : State) : Nibble := if s.nib then lo s.byte else hi s.byte

/-- `DN = D7 ++ D6 ++ D5 ++ D4` (R21). -/
def State.dn (s : State) : Nibble :=
  BitVec.ofBool s.d7 ++ BitVec.ofBool s.d6 ++ BitVec.ofBool s.d5 ++ BitVec.ofBool s.d4

/-- The handshake pulse that a `SEQ` below 4 is the number of (R25). -/
def position (q : BitVec 3) : Fin 4 := Fin.ofNat 4 q.toNat

/-- `T[k]` (R35). -/
def waitTicks (c : Cfg) : WaitKind → Nat
  | .powerOn => c.tPowerOn
  | .init j => c.tInit j
  | .pw => c.tPw
  | .settle => c.tSettle
  | .long => c.tLong

/-- The delay after a pulse (R118): a handshake pulse has its own, a nibble of a byte has the settle delay. -/
def gapKind (q : BitVec 3) : WaitKind := if q < 4#3 then .init (position q) else .settle

end Sys2Proof.Machine
end

