-- ==== Sys2Proof/Machine/Ports.lean ====
section
/-! DEFINITION. The input ports of R43 as the engine sees them in one tick, read off the lists `host` and `env` of the state, and how
those lists move on when the tick ends (R33, R249; log 5, log 6). -/

namespace Sys2Proof.Machine

/-- `rst` in this tick (R230). -/
def State.rstIn (s : State) : Bool :=
  match s.env with
  | [] => false
  | e :: _ => e.rst

/-- `wfail` in this tick (R110). -/
def State.wfailIn (s : State) : BitVec 6 :=
  match s.env with
  | [] => 0#6
  | e :: _ => e.wfail

/-- `req_valid` in this tick (R43, R33). A session call that has not begun offers nothing. -/
def State.reqValid (s : State) : Bool :=
  match s.host with
  | [] => false
  | .quiet :: _ => false
  | .offer _ :: _ => true
  | .glance _ :: _ => true
  | .call _ :: _ => false

/-- `req_word` in this tick (R43). It is read only while `req_valid = 1` (R32); the zero of the other cases is never looked at. -/
def State.reqWord (s : State) : ReqWord :=
  match s.host with
  | [] => 0x000#12
  | .quiet :: _ => 0x000#12
  | .offer w :: _ => w
  | .glance w :: _ => w
  | .call _ :: _ => 0x000#12

/-- The host's list after a tick in which the request port was read (`taken`) or not: an offer is held until taken (R33, R52), the
other port acts last one tick (R249), and a call waits for the engine to be idle (log 7). -/
def hostNext (taken : Bool) : List HostAct → List HostAct
  | [] => []
  | .quiet :: t => t
  | .offer w :: t => if taken then t else .offer w :: t
  | .glance _ :: t => t
  | .call op :: t => .call op :: t

/-- The environment's list with no reset in the coming tick. -/
def withoutRst : List EnvTick → List EnvTick
  | [] => []
  | e :: t => { e with rst := false } :: t

end Sys2Proof.Machine
end

