-- ==== Sys2Proof/Machine/Ops.lean ====
section
/-! DEFINITION. The shared operations: `emit`, raising a cause (R204), the line write `PinWrite` (R110), the three bus-adapter
operations (R111, R112, R116), entering and counting a wait phase (R35), and loading a transfer (R23). -/

namespace Sys2Proof.Machine

/-- `emit e` (R13, R45). -/
def emit (e : Event) (s : State) : State := { s with trace := s.trace ++ [e] }

/-! ### Causes -/

/-- The causes of R201. -/
inductive Cause where
  | lineWriteFailure (l : Line)
  | sequenceError (w : ReqWord)
  | illegalRequest (w : ReqWord)
  | constructionFailure
  | malformedUserCommand
  deriving DecidableEq, Repr

/-- The codes of R201; no register holds them (D22). -/
def Cause.code : Cause → Nat
  | .lineWriteFailure _ => 1
  | .sequenceError _ => 2
  | .illegalRequest _ => 3
  | .constructionFailure => 4
  | .malformedUserCommand => 5

/-- `raise X(info)` (R204, R201): set the sticky flag, for cause 1 also emit `LOG(line)`, and continue the step. Causes 4 and 5 record
nothing inside LCD4 (R206, R209). There is no return from a cause (R214), so nothing stands beside this operation. -/
def raise (c : Cause) (s : State) : State :=
  match c with
  | .lineWriteFailure l => emit (.log l) { s with lineErr := true }
  | .sequenceError _ => { s with seqErr := true }
  | .illegalRequest _ => { s with illReq := true }
  | .constructionFailure => s
  | .malformedUserCommand => s

/-! ### The line write -/

/-- `idx(line)`, the line's bit in `wfail` (R110). -/
def Line.idx : Line → Nat
  | .rs => 0
  | .en => 1
  | .d4 => 2
  | .d5 => 3
  | .d6 => 4
  | .d7 => 5

/-- The level of a line. -/
def State.level (s : State) : Line → Bool
  | .rs => s.rs
  | .en => s.en
  | .d4 => s.d4
  | .d5 => s.d5
  | .d6 => s.d6
  | .d7 => s.d7

/-- `line <- v` (R13). -/
def setLine (l : Line) (v : Bool) (s : State) : State :=
  match l with
  | .rs => { s with rs := v }
  | .en => { s with en := v }
  | .d4 => { s with d4 := v }
  | .d5 => { s with d5 := v }
  | .d6 => { s with d6 := v }
  | .d7 => { s with d7 := v }

/-- The condition of the first branch of R110: `HAS_WFAIL and wfail[idx(line)] = 1`. -/
def State.writeFails (s : State) (l : Line) : Bool := s.params.hasWfail && s.wfailIn.getLsbD l.idx

/-- `line <- draw(Bit)` (R110): the next free value (log 4). -/
def drawLine (l : Line) (s : State) : State :=
  setLine l (Config.freeLevel s.draws) { s with draws := s.draws + 1 }

/-- `PinWrite(line, v)` (R110). -/
def pinWrite (l : Line) (v : Bool) (s : State) : State :=
  if s.writeFails l then drawLine l (raise (.lineWriteFailure l) s) else setLine l v s

/-! ### The three bus-adapter operations -/

/-- `setRegisterSelect(b)` (R111). -/
def setRegisterSelect (b : Bool) (s : State) : State := pinWrite .rs b (emit (.rs b) s)

/-- `setEnable(b)` (R112). -/
def setEnable (b : Bool) (s : State) : State := pinWrite .en b (emit (.en b) s)

/-- `setDataNibble(n)` (R116): four line writes in one step, D4 first, bit `i` to line `D(4+i)` (R61). -/
def setDataNibble (n : Nibble) (s : State) : State :=
  pinWrite .d7 (n.getLsbD 3) (pinWrite .d6 (n.getLsbD 2) (pinWrite .d5 (n.getLsbD 1) (pinWrite .d4 (n.getLsbD 0) (emit (.data n) s))))

/-! ### Waits and transfers -/

/-- Entering the wait phase `p` of kind `k` (R35): load `DLY`, emit `WAIT(k)` after any line event, write `PH`. -/
def enterWait (k : WaitKind) (p : Phase) (s : State) : State :=
  emit (.wait k) { s with dly := waitTicks s.params k, ph := p }

/-- One step of a wait phase (R35); `leave` is the phase's exit rule. -/
def waitStep (leave : State → State) (s : State) : State :=
  if s.dly ≠ 0 then { s with dly := s.dly - 1 } else leave s

/-- Loading the serializer with a transfer (R23): its place `q` in the operation, its register-select level and its byte. -/
def loadTransfer (q : BitVec 3) (rsq : Bool) (b : Byte) (s : State) : State :=
  { s with seq := q, nib := false, rsq := rsq, byte := b }

end Sys2Proof.Machine
end

