-- ==== Sys2Proof/Machine/Engine.lean ====
section
/-! DEFINITION. The engine's own step in each phase: R32 with no legal request, R131, R113, R114, R115, R117, R118, R119, R120, R166.
Each returns the registers after the step; the ghost bookkeeping of a tick is in Tick.lean. -/

namespace Sys2Proof.Machine

/-- Phase `IDLE` when no legal request is offered (R32, R208): nothing, or `IllegalRequest`. A legal request is an instruction and is run
by `exec`. -/
def idleTick (s : State) : State :=
  if s.reqValid then
    match decodeRequest s.reqWord with
    | .error _ => raise (.illegalRequest s.reqWord) s
    | .ok _ => s
  else s

/-- Phase `PRE` (R131). -/
def preTick (s : State) : State := waitStep (fun s => { s with ph := .rsw }) s

/-- Phase `RSW` (R113). -/
def rswTick (s : State) : State := { setRegisterSelect s.rsq s with ph := .dw }

/-- Phase `DW` (R114). -/
def dwTick (s : State) : State := { setDataNibble s.cur s with ph := .enh }

/-- Phase `ENH` (R115). -/
def enhTick (s : State) : State := enterWait .pw .pw (setEnable true s)

/-- Phase `PW` (R117). -/
def pwTick (s : State) : State := waitStep (fun s => { s with ph := .enl }) s

/-- Phase `ENL` (R118). -/
def enlTick (s : State) : State := enterWait (gapKind s.seq) .gap (setEnable false s)

/-- The end of a byte, by operation: the last case of R120. -/
def endOfByte (s : State) : State :=
  match s.opc with
  | .clear => enterWait .long .long s
  | .init => { s with inited := true, cfgN := s.argN, cfgF := s.argF, ph := .idle }
  | .cmd => { s with ph := .idle }
  | .data => { s with ph := .idle }
  | .dispctl => { s with ph := .idle }
  | .none => { s with ph := .idle }   -- DESIGN CHOICE (log 13): R120 allows it; no run gets here

/-- `exit_GAP` (R120): what comes after a pulse. -/
def exitGap (s : State) : State :=
  if s.seq < 3#3 then
    { s with seq := s.seq + 1#3, byte := handshakeByte s.params (position (s.seq + 1#3)), ph := .rsw }
  else if s.seq = 3#3 then
    { s with seq := 4#3, nib := false, byte := functionSetByte s.params s.argN s.argF, ph := .rsw }
  else if s.nib = false then
    { s with nib := true, ph := .rsw }
  else endOfByte s

/-- Phase `GAP` (R119). -/
def gapTick (s : State) : State := waitStep exitGap s

/-- Phase `LONG` (R166). -/
def longTick (s : State) : State := waitStep (fun s => { s with ph := .idle }) s

/-- The step chosen by `PH` (R30, R49). -/
def engineTick (s : State) : State :=
  match s.ph with
  | .idle => idleTick s
  | .pre => preTick s
  | .rsw => rswTick s
  | .dw => dwTick s
  | .enh => enhTick s
  | .pw => pwTick s
  | .enl => enlTick s
  | .gap => gapTick s
  | .long => longTick s

/-- A request as the engine treats it: examined in phase `IDLE` only (R32); in any other phase the port is not read and the tick is the
phase's own (R33, R249; log 12). -/
def whenIdle (examine : State → State) (s : State) : State :=
  if s.ph = .idle then examine s else engineTick s

/-- The mode check of R32 and R215: with `INITED = 0` every legal request but `INIT` raises `SequenceError` and is dropped (R207). -/
def whenReady (accept : State → State) (s : State) : State :=
  if s.inited then accept s else raise (.sequenceError s.reqWord) s

end Sys2Proof.Machine
end

