-- ==== Sys2Proof/Machine/Bus.lean ====
section
/-! DEFINITION. The bus rows of the opcode table (R88 to R91, R93): the transfers the engine itself starts. A row's meaning is the tick
that starts it (log 9): the serializer holds the transfer (R23), and the phase `RSW` of its first pulse asserts register-select
(R113), which is command level for all of them (R88, R89, R90, R91). The engine's phases then send the rest. -/

namespace Sys2Proof.Machine

/-- The first tick of the command transfer of byte `b` at place `q` of its operation (R23, R113). -/
def startTransfer (q : BitVec 3) (b : Byte) (s : State) : State := rswTick (loadTransfer q false b s)

/-- The clear-display byte (R88). -/
def execLcdClear (s : State) : Host.Outcome State Fault Refusal := .next (startTransfer 4#3 s.params.clearCode s)

/-- The display-control byte (R89). -/
def execLcdDispctl (d c k : Bool) (s : State) : Host.Outcome State Fault Refusal :=
  .next (startTransfer 4#3 (displayControlByte s.params d c k) s)

/-- The function-set byte (R90, R133). -/
def execLcdFuncset (n f : Bool) (s : State) : Host.Outcome State Fault Refusal :=
  .next (startTransfer 4#3 (functionSetByte s.params n f) s)

/-- Handshake pulse 0 (R91, R132). -/
def execLcdHs0 (s : State) : Host.Outcome State Fault Refusal := .next (startTransfer 0#3 (handshakeByte s.params 0) s)

/-- Handshake pulse 1 (R91, R132). -/
def execLcdHs1 (s : State) : Host.Outcome State Fault Refusal := .next (startTransfer 1#3 (handshakeByte s.params 1) s)

/-- Handshake pulse 2 (R91, R132). -/
def execLcdHs2 (s : State) : Host.Outcome State Fault Refusal := .next (startTransfer 2#3 (handshakeByte s.params 2) s)

/-- Handshake pulse 3 (R91, R132). -/
def execLcdHs3 (s : State) : Host.Outcome State Fault Refusal := .next (startTransfer 3#3 (handshakeByte s.params 3) s)

end Sys2Proof.Machine
end

