-- ==== Sys2Proof/Machine/Initialization.lean ====
section
/-! DEFINITION. The request `INIT` (41_initialize.md). -/

namespace Sys2Proof.Machine

/-- `accept_INIT(n, f)` (R130). -/
def acceptInit (n f : Bool) (s : State) : State :=
  enterWait .powerOn .pre
    (loadTransfer 0#3 false (handshakeByte s.params 0) { s with opc := .init, argN := n, argF := f, inited := false })

/-- `INIT n, f` (R130): accepted in `IDLE` whatever `INITED` is (R137, R142). -/
def execInit (n f : Bool) (s : State) : Host.Outcome State Fault Refusal := .next (whenIdle (acceptInit n f) s)

end Sys2Proof.Machine
end

