-- ==== Sys2Proof/Machine/Send.lean ====
section
/-! DEFINITION. The acceptance of a byte transfer, and the requests `CMD` and `DATA` (42_send.md). -/

namespace Sys2Proof.Machine

/-- What `accept_CMD`, `accept_DATA`, `accept_CLEAR` and `accept_DISPCTL` share (R150, R151, R165, R170): the operation, the
register-select level, the byte, and the first pulse next. -/
def acceptByte (op : Opc) (rsq : Bool) (b : Byte) (s : State) : State :=
  { loadTransfer 4#3 rsq b { s with opc := op } with ph := .rsw }

/-- `CMD b` (R150). The byte is not looked at (R156, R157). -/
def execCmd (b : Byte) (s : State) : Host.Outcome State Fault Refusal :=
  .next (whenIdle (whenReady (acceptByte .cmd false b)) s)

/-- `DATA b` (R151). -/
def execData (b : Byte) (s : State) : Host.Outcome State Fault Refusal :=
  .next (whenIdle (whenReady (acceptByte .data true b)) s)

end Sys2Proof.Machine
end

