-- ==== Sys2Proof/Machine/Named.lean ====
section
/-! DEFINITION. The named commands `CLEAR` and `DISPCTL` (43_clear_dispctl.md). -/

namespace Sys2Proof.Machine

/-- `CLEAR` (R165). The long wait hangs on the operation, not on the byte (R173(e)). -/
def execClear (s : State) : Host.Outcome State Fault Refusal :=
  .next (whenIdle (whenReady (acceptByte .clear false s.params.clearCode)) s)

/-- `DISPCTL d, c, k` (R170). -/
def execDispctl (d c k : Bool) (s : State) : Host.Outcome State Fault Refusal :=
  .next (whenIdle (whenReady (acceptByte .dispctl false (displayControlByte s.params d c k))) s)

end Sys2Proof.Machine
end

