-- ==== Sys2Proof/Machine/Dispatch.lean ====
section
/-! DEFINITION. The dispatch: one arm per row of the opcode table. -/

namespace Sys2Proof.Machine

def exec (i : Instr) (s : State) : Host.Outcome State Fault Refusal :=
  match i with
  -- requests (REQ12)
  | .init n f => Sys2Proof.Machine.execInit n f s
  | .cmd b => Sys2Proof.Machine.execCmd b s
  | .data b => Sys2Proof.Machine.execData b s
  | .clear => Sys2Proof.Machine.execClear s
  | .dispctl d c k => Sys2Proof.Machine.execDispctl d c k s
  -- controller bytes (LCDBYTE)
  | .lcdClear => Sys2Proof.Machine.execLcdClear s
  | .lcdDispctl d c k => Sys2Proof.Machine.execLcdDispctl d c k s
  | .lcdFuncset n f => Sys2Proof.Machine.execLcdFuncset n f s
  -- handshake nibbles (LCDNIB)
  | .lcdHs0 => Sys2Proof.Machine.execLcdHs0 s
  | .lcdHs1 => Sys2Proof.Machine.execLcdHs1 s
  | .lcdHs2 => Sys2Proof.Machine.execLcdHs2 s
  | .lcdHs3 => Sys2Proof.Machine.execLcdHs3 s

end Sys2Proof.Machine
end

