-- ==== Sys2Proof/Machine/Fetch.lean ====
section
/-! DEFINITION. What plays the part of instruction fetch: sampling `req_word` in the tick of acceptance (R75, R32), and the transfer the
serializer holds when its first pulse starts (R23, R97; log 9). Also how a word is placed where the step fetches it (log 11). -/

namespace Sys2Proof.Machine

/-- The legal request offered in this tick, if the engine looks at the port (R32, R33). -/
def requestAt (s : State) : Option Instr :=
  if s.ph = .idle ∧ s.reqValid = true then accepted (decodeRequest s.reqWord) else none

/-- The bus row the engine starts in this tick: phase `RSW`, first nibble, command level. The transfer's kind is its position: a single
nibble while `SEQ < 4`, a byte when `SEQ = 4` (R97, R25). A byte that `CMD` or `DATA` sends may be none of the rows. -/
def transferAt (s : State) : Option Instr :=
  if s.ph = .rsw ∧ s.nib = false ∧ s.rsq = false then
    if s.seq < 4#3 then
      if lo s.byte = 0x0#4 then accepted (decodeBusNibble s.params (position s.seq) (hi s.byte)) else none
    else if s.seq = 4#3 then accepted (decodeBusByte s.params s.byte)
    else none
  else none

/-- The instruction this tick runs, if any. -/
def fetch (s : State) : Option Instr :=
  match requestAt s with
  | some i => some i
  | none => transferAt s

/-- The state with an encoded instruction where the next tick fetches it, and no reset in that tick. -/
def placeEncoded (e : Encoded) (s : State) : State :=
  match e with
  | .request w => { s with ph := .idle, host := .offer w :: s.host, env := withoutRst s.env }
  | .busByte b => { loadTransfer 4#3 false b s with ph := .rsw, env := withoutRst s.env }
  | .busNibble pos n =>
    { loadTransfer (BitVec.ofNat 3 pos.val) false (n ++ 0x0#4) s with ph := .rsw, env := withoutRst s.env }

/-- The state with a table row's word where the next tick fetches it. A word no row could spell goes to the request port. -/
def placeTableWord (nbits w : Nat) (s : State) : State :=
  match tableEncoded nbits w with
  | some e => placeEncoded e s
  | none => placeEncoded (.request (BitVec.ofNat 12 w)) s

end Sys2Proof.Machine
end

