-- ==== Sys2Proof/Machine/Session.lean ====
section
/-! DEFINITION. The Display Session and the serial lines that reach the display (44_display_session.md): what each call writes and which
requests it offers, and the moment a call begins. -/

namespace Sys2Proof.Machine

/-- The requests a call offers, in order (R182, R183, R184; R99). -/
def SessionOp.requests : SessionOp → List Instr
  | .display d c k => [.dispctl d c k]
  | .write text => text.map .data
  | .clear => [.clear]

/-- `DISP` after a call (R182; R183, R184 leave it alone). -/
def SessionOp.dispAfter : SessionOp → Disp → Disp
  | .display d c k, _ => ⟨d, c, k⟩
  | .write _, x => x
  | .clear, x => x

/-- Offering requests one after another, each held until taken (R33, R52). -/
def offers (reqs : List Instr) : List HostAct := reqs.map (fun i => .offer (encodeRequest i))

/-- The calls that begin now: those at the head of the host's list, up to the first that has something to offer (log 7). An empty text
offers nothing (R183), so the next act follows at once. -/
def beginCalls : List HostAct → Disp → List HostAct × Disp
  | [], x => ([], x)
  | .quiet :: t, x => (.quiet :: t, x)
  | .offer w :: t, x => (.offer w :: t, x)
  | .glance w :: t, x => (.glance w :: t, x)
  | .call op :: t, x =>
    match op.requests with
    | [] => beginCalls t (op.dispAfter x)
    | r :: rs => (offers (r :: rs) ++ t, op.dispAfter x)

/-- A call begins when the engine is idle: the call before it "returns" at the first tick with `PH = IDLE` again (R33). -/
def sessionCalls (s : State) : State :=
  if s.ph = .idle then { s with host := (beginCalls s.host s.disp).1, disp := (beginCalls s.host s.disp).2 } else s

/-- A line of the serial surface, parsed already: "The parsing itself is outside this spec" (R189). -/
inductive SerialLine where
  /-- `clr` (R187) -/
  | clr
  /-- `display:<text>` (R188) -/
  | display (text : List Byte)
  /-- `led:...` (R189) -/
  | led
  /-- the empty line (R189) -/
  | empty
  /-- any other line (R189): `MalformedUserCommand` (R201) -/
  | unknown
  deriving DecidableEq, Repr

/-- The session calls a line expands to (R187, R188, R189). -/
def SerialLine.calls : SerialLine → List SessionOp
  | .clr => [.clear]
  | .display text => [.write text]
  | .led => []
  | .empty => []
  | .unknown => []

/-- The host typing serial lines: the calls wait in its list. -/
def serialHost (lines : List SerialLine) : List HostAct := (lines.flatMap SerialLine.calls).map .call

end Sys2Proof.Machine
end

