-- ==== Sys2Proof/Machine/Tick.lean ====
section
/-! DEFINITION. What a tick does around the engine's step: the power cycle (R50, R230, R212), the latch ghost `LAT` (R47), the tick
count `NOW` (R46), and the inputs moving on to the next tick. -/

namespace Sys2Proof.Machine

/-- A tick with `rst` asserted: every register goes to its value of R50, "and performs no other step" (R230). The parameters, the draws
already made, and the world outside go on (log 8). -/
def powerCycle (s : State) : State :=
  { State.reset with params := s.params, host := hostNext false s.host, env := s.env.tail, draws := s.draws }

/-- `LAT` grows in a tick in which `EN` falls, by the levels before the step (R47). -/
def latched (before after : State) : List (Bool × Nibble) :=
  if before.en && !after.en then after.lat ++ [(before.rs, before.dn)] else after.lat

/-- The end of a tick: ghosts, and the inputs of the next tick. The request port was read when the tick began in `IDLE` (R33). -/
def endTick (before after : State) : State :=
  { after with
    lat := latched before after
    now := after.now + 1
    host := hostNext (before.ph == .idle) after.host
    env := after.env.tail }

/-- A tick whose step had the outcome `o`. -/
def finish (before : State) (o : Host.Outcome State Fault Refusal) : Host.Outcome State Fault Refusal :=
  match o with
  | .next after => .next (endTick before after)
  | .fault r => .fault r
  | .refused r => .refused r

end Sys2Proof.Machine
end

