-- ==== Sys2Proof/Machine/Step.lean ====
section
/-! DEFINITION. One step of the machine is one tick (R13, R49). -/

namespace Sys2Proof.Machine

/-- One tick: reset beats everything (R212); else the session calls that begin now begin, and the engine runs the instruction it fetches
or its phase's own step. -/
def step (s : State) : Host.Outcome State Fault Refusal :=
  if s.rstIn then .next (powerCycle s)
  else
    match fetch (sessionCalls s) with
    | some i => finish (sessionCalls s) (exec i (sessionCalls s))
    | none => .next (endTick (sessionCalls s) (engineTick (sessionCalls s)))

/-- `s` with a table row's word where the next step fetches it: on the request port of an idle engine, or in the serializer at the start
of a transfer (log 11). -/
def State.withFetchWord (s : State) (nbits w : Nat) : State := placeTableWord nbits w s

end Sys2Proof.Machine
end

