-- ==== Sys2Proof/Safety.lean ====
section
/-! DEFINITION. What claims about LCD4 are stated in: runs of ticks, well-behaved surroundings, the pulse and its order on the bus
(R14, R70, R71), the invariants of the sequencer and of the lines, the pairing of latched nibbles (R48, R64), and how many ticks an
operation still takes (R36, R122, R254). -/

namespace Sys2Proof.Machine

/-! ### Runs -/

/-- `k` ticks. -/
def runTicks : Nat → State → Host.Outcome State Fault Refusal
  | 0, s => .next s
  | k + 1, s =>
    match step s with
    | .next t => runTicks k t
    | .fault r => .fault r
    | .refused r => .refused r

/-- No reset is coming. -/
def State.noReset (s : State) : Bool := s.env.all (fun e => !e.rst)

/-- No line write will fail (R224): none can, or the environment lets none. -/
def State.noFailure (s : State) : Bool := !s.params.hasWfail || s.env.all (fun e => e.wfail == 0#6)

/-- No line write fails in this tick. -/
def State.writesSucceed (s : State) : Bool := !s.params.hasWfail || s.wfailIn == 0#6

/-! ### Pulses and their order -/

/-- The six events `P(rs, n, k)` of R14. -/
def pulse (rs : Bool) (n : Nibble) (k : WaitKind) : List Event :=
  [.rs rs, .data n, .en true, .wait .pw, .en false, .wait k]

/-- The twelve events of a byte transfer (R152). -/
def byteEvents (rs : Bool) (b : Byte) : List Event := pulse rs (hi b) .settle ++ pulse rs (lo b) .settle

/-- The two latched nibbles of a byte transfer, high nibble first (R60, R152). -/
def byteNibbles (rs : Bool) (b : Byte) : List (Bool × Nibble) := [(rs, hi b), (rs, lo b)]

/-- `pair(l)` of R48: latched nibbles back to bytes, where the list has even length and each pair one level. -/
def pairNibbles : List (Bool × Nibble) → Option (List (Bool × Byte))
  | [] => some []
  | [_] => none
  | (r1, h) :: (r2, l) :: t => if r1 = r2 then (pairNibbles t).map (fun bs => (r1, h ++ l) :: bs) else none

/-- How far a pulse has come on the bus. -/
inductive BusStage where
  | rest | selected | driven | high | pulsing | low
  deriving DecidableEq, Repr

/-- The order of R71: register-select, data lines, enable high, the pulse width, enable low, the gap; the waits before an initialization's
first pulse and after a clear lie between pulses. A `LOG` may follow any line event (R110). -/
def BusStage.after : BusStage → Event → Option BusStage
  | st, .log _ => some st
  | .rest, .rs _ => some .selected
  | .rest, .wait .powerOn => some .rest
  | .rest, .wait .long => some .rest
  | .selected, .data _ => some .driven
  | .driven, .en true => some .high
  | .high, .wait .pw => some .pulsing
  | .pulsing, .en false => some .low
  | .low, .wait .settle => some .rest
  | .low, .wait (.init _) => some .rest
  | _, _ => none

/-- Where a list of events leaves the bus, if it keeps the order. -/
def stageAfter (es : List Event) : Option BusStage := es.foldl (fun st e => st.bind (fun b => b.after e)) (some .rest)

/-- Where the bus stands in each phase. -/
def Phase.stage : Phase → BusStage
  | .idle => .rest
  | .pre => .rest
  | .rsw => .rest
  | .dw => .selected
  | .enh => .driven
  | .pw => .pulsing
  | .enl => .pulsing
  | .gap => .rest
  | .long => .rest

/-- `TRACE` is a list of whole pulses in order, the last one as far as `PH` says (R31, R70, R71). -/
abbrev State.BusOrdered (s : State) : Prop := stageAfter s.trace = some s.ph.stage

/-! ### Invariants -/

/-- The sequencer's registers fit together (R24, R25, R34, R38, R215): what `SEQ`, `NIB`, `RSQ`, `OPC` and `INITED` can be in each phase,
and that the byte in the serializer is the one the operation names (R88, R90, R91). -/
abbrev State.Sequenced (s : State) : Prop :=
  s.seq ≤ 4#3 ∧
  (s.seq < 4#3 → s.nib = false) ∧
  (s.rsq = (s.opc == .data)) ∧
  (s.ph ≠ .idle → s.opc ≠ .none) ∧
  (s.ph ≠ .idle → s.seq < 4#3 → s.opc = .init) ∧
  (s.ph = .pre → s.opc = .init ∧ s.seq = 0#3) ∧
  (s.ph = .long → s.opc = .clear ∧ s.seq = 4#3 ∧ s.nib = true) ∧
  (s.ph ≠ .idle → s.inited = (s.opc != .init)) ∧
  (s.ph = .idle → s.inited = (s.opc != .none)) ∧
  (s.ph = .idle → s.opc ≠ .none → s.seq = 4#3 ∧ s.nib = true) ∧
  (s.opc = .clear → s.byte = s.params.clearCode) ∧
  (s.opc = .init → s.seq < 4#3 → s.byte = handshakeByte s.params (position s.seq)) ∧
  (s.opc = .init → s.seq = 4#3 → s.byte = functionSetByte s.params s.argN s.argF)

/-- `DLY` fits its `DLY_W` bits (R20, R36). -/
abbrev State.DelayFits (s : State) : Prop := s.dly < 2 ^ s.params.dlyW

/-- Where no line write can fail, `EN` is high exactly in the phases `PW` and `ENL` (R122(d)), and nothing is reported. -/
abbrev State.EnableFollows (s : State) : Prop :=
  s.params.hasWfail = false → (s.en = (s.ph == .pw || s.ph == .enl)) ∧ s.lineErr = false

/-- Where no line write can fail, `RS` holds the transfer's level from the end of `RSW`, and the data lines hold the current nibble from the
end of `DW`, to the end of `GAP` (R121). -/
abbrev State.LinesHold (s : State) : Prop :=
  s.params.hasWfail = false →
    (s.ph = .dw ∨ s.ph = .enh ∨ s.ph = .pw ∨ s.ph = .enl ∨ s.ph = .gap → s.rs = s.rsq) ∧
    (s.ph = .enh ∨ s.ph = .pw ∨ s.ph = .enl ∨ s.ph = .gap → s.dn = s.cur)

/-- Whether an odd number of strobes has been made: by the pulses before this one in the operation (R25), and this one once `EN` fell. -/
def State.oddStrobes (s : State) : Bool :=
  match s.ph with
  | .idle => false
  | .pre => false
  | .rsw => if s.seq < 4#3 then s.seq.getLsbD 0 else s.nib
  | .dw => if s.seq < 4#3 then s.seq.getLsbD 0 else s.nib
  | .enh => if s.seq < 4#3 then s.seq.getLsbD 0 else s.nib
  | .pw => if s.seq < 4#3 then s.seq.getLsbD 0 else s.nib
  | .enl => if s.seq < 4#3 then s.seq.getLsbD 0 else s.nib
  | .gap => !(if s.seq < 4#3 then s.seq.getLsbD 0 else s.nib)
  | .long => false

/-- The pairing of nibbles (R64): where no line write can fail, the number of strobes has the parity the sequencer says, so it "is even
whenever `PH = IDLE`". -/
abbrev State.Paired (s : State) : Prop :=
  s.params.hasWfail = false → s.lat.length % 2 = if s.oddStrobes then 1 else 0

/-! ### Durations -/

/-- The ticks of one pulse of gap kind `k` (R122(c)). -/
def pulseTicks (c : Cfg) (k : WaitKind) : Nat := c.tPw + waitTicks c k + 6

/-- The ticks an operation still takes after its last byte (R120, R166). -/
def tailTicks (c : Cfg) (op : Opc) : Nat := if op = .clear then c.tLong + 1 else 0

/-- The ticks left when the pulse at place `q`, half `nib`, has ended (R120). -/
def afterPulseTicks (c : Cfg) (op : Opc) (q : BitVec 3) (nib : Bool) : Nat :=
  if q = 0#3 then pulseTicks c (.init 1) + pulseTicks c (.init 2) + pulseTicks c (.init 3) + 2 * pulseTicks c .settle + tailTicks c op
  else if q = 1#3 then pulseTicks c (.init 2) + pulseTicks c (.init 3) + 2 * pulseTicks c .settle + tailTicks c op
  else if q = 2#3 then pulseTicks c (.init 3) + 2 * pulseTicks c .settle + tailTicks c op
  else if q = 3#3 then 2 * pulseTicks c .settle + tailTicks c op
  else if nib then tailTicks c op
  else pulseTicks c .settle + tailTicks c op

/-- The ticks until the engine is idle again, if no reset comes (R36, R122, R254). -/
def State.ticksLeft (s : State) : Nat :=
  let rest := afterPulseTicks s.params s.opc s.seq s.nib
  let gap := waitTicks s.params (gapKind s.seq)
  match s.ph with
  | .idle => 0
  | .pre => s.dly + 1 + pulseTicks s.params (gapKind s.seq) + rest
  | .rsw => s.params.tPw + gap + 6 + rest
  | .dw => s.params.tPw + gap + 5 + rest
  | .enh => s.params.tPw + gap + 4 + rest
  | .pw => s.dly + gap + 3 + rest
  | .enl => gap + 2 + rest
  | .gap => s.dly + 1 + rest
  | .long => s.dly + 1

end Sys2Proof.Machine
end

