-- ==== Sys2Proof/Certificates/Slice0/Obligations.lean ====
section
/-! DEFINITION. The statements for the provers. They are about the machine, never about a program; each docstring names the rules of
spec/ it formalises. A next state is written out field by field, so that a statement is also the frame: what is not named is unchanged. -/

open Sys2Proof Sys2Proof.Machine

/-! ### Encoding -/

/-- R85: `encode` word by word, and `decode` and `encode` are inverse on requests and legal words. -/
def Obligations.RequestEncodingIsABijection : Prop :=
  (∀ n f, encodeRequest (.init n f) =
    0x100#12 ||| ((BitVec.ofBool n).setWidth 12 <<< 3) ||| ((BitVec.ofBool f).setWidth 12 <<< 2)) ∧
  (∀ b, encodeRequest (.cmd b) = 0x200#12 ||| b.setWidth 12) ∧
  (∀ b, encodeRequest (.data b) = 0x300#12 ||| b.setWidth 12) ∧
  encodeRequest .clear = 0x400#12 ∧
  (∀ d c k, encodeRequest (.dispctl d c k) =
    0x500#12 ||| ((BitVec.ofBool d).setWidth 12 <<< 2) ||| ((BitVec.ofBool c).setWidth 12 <<< 1) ||| (BitVec.ofBool k).setWidth 12) ∧
  (∀ i : Instr, i.isRequest = true → decodeRequest (encodeRequest i) = .ok i) ∧
  (∀ w i, decodeRequest w = .ok i → i.isRequest = true ∧ encodeRequest i = w)

/-- R84, R88 to R91: every row of the table, the bus rows too, is read back from its own words, for all parameters that meet R11 and keep
the controller bytes apart. -/
def Obligations.DecodeEncodeEveryRow : Prop :=
  ∀ (c : Cfg) (i : Instr), i.wf = true → c.wf = true → c.bytesDistinct = true → decode c (encode c i) = .ok i

/-- R84: the five patterns of the opcode table decide what a word is, everything else is illegal, and 525 words are legal. -/
def Obligations.LegalWordsAreTheTablePatterns : Prop :=
  (∀ w : ReqWord, w &&& 0xFF3#12 = 0x100#12 → decodeRequest w = .ok (.init (w.getLsbD 3) (w.getLsbD 2))) ∧
  (∀ w : ReqWord, w &&& 0xF00#12 = 0x200#12 → decodeRequest w = .ok (.cmd (w.setWidth 8))) ∧
  (∀ w : ReqWord, w &&& 0xF00#12 = 0x300#12 → decodeRequest w = .ok (.data (w.setWidth 8))) ∧
  (∀ w : ReqWord, w = 0x400#12 → decodeRequest w = .ok .clear) ∧
  (∀ w : ReqWord, w &&& 0xFF8#12 = 0x500#12 →
    decodeRequest w = .ok (.dispctl (w.getLsbD 2) (w.getLsbD 1) (w.getLsbD 0))) ∧
  (∀ w : ReqWord, w &&& 0xFF3#12 ≠ 0x100#12 → w &&& 0xF00#12 ≠ 0x200#12 → w &&& 0xF00#12 ≠ 0x300#12 → w ≠ 0x400#12 →
    w &&& 0xFF8#12 ≠ 0x500#12 → ∃ why, decodeRequest w = .error why) ∧
  (List.range 4096).countP (fun w => (accepted (decodeRequest (BitVec.ofNat 12 w))).isSome) = 525 ∧
  (List.range 4096).countP (fun w => match decodeRequest (BitVec.ofNat 12 w) with | .ok (.init _ _) => true | _ => false) = 4 ∧
  (List.range 4096).countP (fun w => match decodeRequest (BitVec.ofNat 12 w) with | .ok (.cmd _) => true | _ => false) = 256 ∧
  (List.range 4096).countP (fun w => match decodeRequest (BitVec.ofNat 12 w) with | .ok (.data _) => true | _ => false) = 256 ∧
  (List.range 4096).countP (fun w => match decodeRequest (BitVec.ofNat 12 w) with | .ok .clear => true | _ => false) = 1 ∧
  (List.range 4096).countP (fun w => match decodeRequest (BitVec.ofNat 12 w) with | .ok (.dispctl _ _ _) => true | _ => false) = 8

/-- Words of the opcode table and of V1 to V9, written out by hand, decode to what they spell. -/
def Obligations.SampleWordsDecode : Prop :=
  decodeRequest 0x10C#12 = .ok (.init true true) ∧
  decodeRequest 0x280#12 = .ok (.cmd 0x80#8) ∧
  decodeRequest 0x348#12 = .ok (.data 0x48#8) ∧
  decodeRequest 0x400#12 = .ok .clear ∧
  decodeRequest 0x504#12 = .ok (.dispctl true false false) ∧
  decodeTableWord 8 0x01 = some .lcdClear ∧
  decodeTableWord 8 0x0C = some (.lcdDispctl true false false) ∧
  decodeTableWord 8 0x28 = some (.lcdFuncset true false) ∧
  decodeTableWord 8 0x03 = some .lcdHs0 ∧
  decodeTableWord 8 0x02 = some .lcdHs3

/-! ### A step runs what it fetches -/

/-- R32, R75: a legal request on the port of an idle engine is what the tick runs; around its meaning the tick adds the end of the tick. -/
def Obligations.StepRunsTheOfferedRequest : Prop :=
  ∀ (s : State) (w : ReqWord) (rest : List HostAct) (i : Instr),
    s.rstIn = false → s.ph = .idle → (s.host = .offer w :: rest ∨ s.host = .glance w :: rest) → decodeRequest w = .ok i →
    ∃ t, exec i s = .next t ∧
      step s = .next { t with lat := latched s t, now := s.now + 1, host := rest, env := s.env.tail }

/-- R113, R88 to R91 (log 9): the transfer the serializer holds at its first pulse is what the tick runs. -/
def Obligations.StepRunsTheBusTransfer : Prop :=
  ∀ (s : State) (i : Instr), s.rstIn = false → transferAt s = some i →
    i.isRequest = false ∧ ∃ t, exec i s = .next t ∧ step s = .next (endTick s t)

/-- Placing a table row's word makes the next step run the instruction the decoder reads from it: a request in any state, a bus row with
the default parameters the table is written for. -/
def Obligations.StepRunsThePlacedWord : Prop :=
  ∀ (s : State) (nbits w : Nat) (i : Instr), s.params = Cfg.default → decodeTableWord nbits w = some i →
    ∃ t, exec i (s.withFetchWord nbits w) = .next t ∧
      step (s.withFetchWord nbits w) = .next (endTick (s.withFetchWord nbits w) t)

/-! ### Requests -/

/-- R130: the word of `INIT n, f`, and what it does in its acceptance tick, from any idle state, initialized or not. -/
def Obligations.InitIsAccepted : Prop :=
  (∀ n f : Bool, decodeRequest (0x1#4 ++ 0x0#4 ++ BitVec.ofBool n ++ BitVec.ofBool f ++ 0#2) = .ok (.init n f)) ∧
  ∀ (s : State) (n f : Bool), s.ph = .idle →
    exec (.init n f) s = .next { s with
      opc := .init, argN := n, argF := f, inited := false, seq := 0#3, nib := false, rsq := false
      byte := s.params.initNib0 ++ 0x0#4, dly := s.params.tPowerOn, trace := s.trace ++ [.wait .powerOn], ph := .pre }

/-- R150, R151: what `CMD b` and `DATA b` do in their acceptance tick. -/
def Obligations.CmdAndDataAreAccepted : Prop :=
  ∀ (s : State) (b : Byte), s.ph = .idle → s.inited = true →
    exec (.cmd b) s = .next { s with opc := .cmd, seq := 4#3, nib := false, rsq := false, byte := b, ph := .rsw } ∧
    exec (.data b) s = .next { s with opc := .data, seq := 4#3, nib := false, rsq := true, byte := b, ph := .rsw }

/-- R165, R170: what `CLEAR` and `DISPCTL d, c, k` do in their acceptance tick. -/
def Obligations.ClearAndDispctlAreAccepted : Prop :=
  ∀ (s : State) (d c k : Bool), s.ph = .idle → s.inited = true →
    exec .clear s = .next { s with
      opc := .clear, seq := 4#3, nib := false, rsq := false, byte := s.params.clearCode, ph := .rsw } ∧
    exec (.dispctl d c k) s = .next { s with
      opc := .dispctl, seq := 4#3, nib := false, rsq := false
      byte := s.params.dispctlBase ||| ((BitVec.ofBool d).setWidth 8 <<< 2) ||| ((BitVec.ofBool c).setWidth 8 <<< 1) |||
        (BitVec.ofBool k).setWidth 8
      ph := .rsw }

/-- R207: a legal request other than `INIT` while `INITED = 0`, held or shown for one tick (R249), sets `SEQERR`, changes nothing else, emits
nothing, and is consumed. -/
def Obligations.RequestBeforeInitIsDropped : Prop :=
  ∀ (s : State) (w : ReqWord) (rest : List HostAct) (i : Instr),
    s.rstIn = false → s.ph = .idle → s.inited = false → (s.host = .offer w :: rest ∨ s.host = .glance w :: rest) →
    decodeRequest w = .ok i → (∀ n f, i ≠ .init n f) →
    exec i s = .next { s with seqErr := true } ∧
    step s = .next { s with seqErr := true, now := s.now + 1, host := rest, env := s.env.tail }

/-- R208: an illegal word, held or shown for one tick (R249), sets `ILLREQ` whatever `INITED` is, changes nothing else, emits nothing, and is
consumed. -/
def Obligations.IllegalWordIsDropped : Prop :=
  ∀ (s : State) (w : ReqWord) (rest : List HostAct) (why : Illegal),
    s.rstIn = false → s.ph = .idle → (s.host = .offer w :: rest ∨ s.host = .glance w :: rest) → decodeRequest w = .error why →
    step s = .next { s with illReq := true, now := s.now + 1, host := rest, env := s.env.tail }

/-- R32, R221: with nothing offered, an idle tick changes no register. -/
def Obligations.IdleTickWithoutRequest : Prop :=
  ∀ (s : State), s.rstIn = false → s.ph = .idle → (s.host = [] ∨ ∃ rest, s.host = .quiet :: rest) →
    step s = .next { s with now := s.now + 1, host := s.host.tail, env := s.env.tail }

/-- R33, R75, R249: a busy engine does not read the port: the step is the same whatever the host does. The first clause, that `exec` of a
request in a busy phase is the phase's own tick, is the model's reading of those rules (log 12, DEDUCED). -/
def Obligations.BusyEngineIgnoresThePort : Prop :=
  (∀ (s : State) (i : Instr), i.isRequest = true → s.ph ≠ .idle → exec i s = .next (engineTick s)) ∧
  (∀ (s t : State) (h : List HostAct), s.rstIn = false → s.ph ≠ .idle → step s = .next t →
    step { s with host := h } = .next { t with host := hostNext false h })

/-! ### Bus rows -/

/-- R88, R89, R90, R113: the tick that starts a controller byte: the serializer holds the byte, `RS` is written low, the data lines are next.
If the write of `RS` fails, the line holds a draw and the failure is reported (R110). -/
def Obligations.ControllerBytesStart : Prop :=
  ∀ (s : State) (d c k n f : Bool),
    exec .lcdClear s = .next { s with
      seq := 4#3, nib := false, rsq := false, byte := s.params.clearCode, ph := .dw
      rs := if s.writeFails .rs then Config.freeLevel s.draws else false
      lineErr := s.lineErr || s.writeFails .rs
      trace := s.trace ++ [.rs false] ++ (if s.writeFails .rs then [.log .rs] else [])
      draws := if s.writeFails .rs then s.draws + 1 else s.draws } ∧
    exec (.lcdDispctl d c k) s = .next { s with
      seq := 4#3, nib := false, rsq := false, ph := .dw
      byte := s.params.dispctlBase ||| ((BitVec.ofBool d).setWidth 8 <<< 2) ||| ((BitVec.ofBool c).setWidth 8 <<< 1) |||
        (BitVec.ofBool k).setWidth 8
      rs := if s.writeFails .rs then Config.freeLevel s.draws else false
      lineErr := s.lineErr || s.writeFails .rs
      trace := s.trace ++ [.rs false] ++ (if s.writeFails .rs then [.log .rs] else [])
      draws := if s.writeFails .rs then s.draws + 1 else s.draws } ∧
    exec (.lcdFuncset n f) s = .next { s with
      seq := 4#3, nib := false, rsq := false, ph := .dw
      byte := s.params.funcsetBase ||| ((BitVec.ofBool n).setWidth 8 <<< 3) ||| ((BitVec.ofBool f).setWidth 8 <<< 2)
      rs := if s.writeFails .rs then Config.freeLevel s.draws else false
      lineErr := s.lineErr || s.writeFails .rs
      trace := s.trace ++ [.rs false] ++ (if s.writeFails .rs then [.log .rs] else [])
      draws := if s.writeFails .rs then s.draws + 1 else s.draws }

/-- R91, R113, R132: the tick that starts handshake pulse 0, 1, 2 or 3. -/
def Obligations.HandshakePulsesStart : Prop :=
  ∀ (s : State) (i : Instr) (q : BitVec 3) (n : Nibble),
    ((i = .lcdHs0 ∧ q = 0#3 ∧ n = s.params.initNib0) ∨ (i = .lcdHs1 ∧ q = 1#3 ∧ n = s.params.initNib1) ∨
      (i = .lcdHs2 ∧ q = 2#3 ∧ n = s.params.initNib2) ∨ (i = .lcdHs3 ∧ q = 3#3 ∧ n = s.params.initNib3)) →
    exec i s = .next { s with
      seq := q, nib := false, rsq := false, byte := n ++ 0x0#4, ph := .dw
      rs := if s.writeFails .rs then Config.freeLevel s.draws else false
      lineErr := s.lineErr || s.writeFails .rs
      trace := s.trace ++ [.rs false] ++ (if s.writeFails .rs then [.log .rs] else [])
      draws := if s.writeFails .rs then s.draws + 1 else s.draws }

/-! ### The line write and the phases -/

/-- R110: when a write fails, and what each branch does. -/
def Obligations.PinWriteWritesOrDraws : Prop :=
  (∀ s : State, s.writeFails .rs = (s.params.hasWfail && s.wfailIn.getLsbD 0) ∧
    s.writeFails .en = (s.params.hasWfail && s.wfailIn.getLsbD 1) ∧
    s.writeFails .d4 = (s.params.hasWfail && s.wfailIn.getLsbD 2) ∧
    s.writeFails .d5 = (s.params.hasWfail && s.wfailIn.getLsbD 3) ∧
    s.writeFails .d6 = (s.params.hasWfail && s.wfailIn.getLsbD 4) ∧
    s.writeFails .d7 = (s.params.hasWfail && s.wfailIn.getLsbD 5)) ∧
  (∀ (l : Line) (v : Bool) (s : State), (setLine l v s).level l = v ∧ (∀ m, m ≠ l → (setLine l v s).level m = s.level m)) ∧
  (∀ (l : Line) (v : Bool) (s : State), s.writeFails l = false → pinWrite l v s = setLine l v s) ∧
  (∀ (l : Line) (v : Bool) (s : State), s.writeFails l = true →
    pinWrite l v s = { setLine l (Config.freeLevel s.draws) s with
      lineErr := true, trace := s.trace ++ [.log l], draws := s.draws + 1 })

/-- R113: the tick of phase `RSW`. -/
def Obligations.RegisterSelectPhase : Prop :=
  ∀ s : State, s.rstIn = false → s.ph = .rsw →
    step s = .next { s with
      ph := .dw, now := s.now + 1, host := hostNext false s.host, env := s.env.tail
      rs := if s.writeFails .rs then Config.freeLevel s.draws else s.rsq
      lineErr := s.lineErr || s.writeFails .rs
      trace := s.trace ++ [.rs s.rsq] ++ (if s.writeFails .rs then [.log .rs] else [])
      draws := if s.writeFails .rs then s.draws + 1 else s.draws }

/-- R61, R114: the tick of phase `DW` with no failing write puts bit `i` of the current nibble on line `D(4+i)`: the high half of the byte at
the first strobe, the low half at the second. -/
def Obligations.DataPhaseMapsBitsToLines : Prop :=
  ∀ s : State, s.rstIn = false → s.ph = .dw → s.writesSucceed = true →
    step s = .next { s with
      ph := .enh, now := s.now + 1, host := hostNext false s.host, env := s.env.tail
      d4 := if s.nib then s.byte.getLsbD 0 else s.byte.getLsbD 4
      d5 := if s.nib then s.byte.getLsbD 1 else s.byte.getLsbD 5
      d6 := if s.nib then s.byte.getLsbD 2 else s.byte.getLsbD 6
      d7 := if s.nib then s.byte.getLsbD 3 else s.byte.getLsbD 7
      trace := s.trace ++ [.data s.cur] }

/-- R116, R212: in phase `DW` each line fails by itself; a line that does not fail holds its bit, the failures are logged in the order D4, D5,
D6, D7, and the phase goes on all the same. -/
def Obligations.DataPhaseLogsFailuresInOrder : Prop :=
  ∀ s : State, s.rstIn = false → s.ph = .dw →
    ∃ a b c d : Bool,
      (s.writeFails .d4 = false → a = s.cur.getLsbD 0) ∧ (s.writeFails .d5 = false → b = s.cur.getLsbD 1) ∧
      (s.writeFails .d6 = false → c = s.cur.getLsbD 2) ∧ (s.writeFails .d7 = false → d = s.cur.getLsbD 3) ∧
      step s = .next { s with
        ph := .enh, now := s.now + 1, host := hostNext false s.host, env := s.env.tail
        d4 := a, d5 := b, d6 := c, d7 := d
        lineErr := s.lineErr || s.writeFails .d4 || s.writeFails .d5 || s.writeFails .d6 || s.writeFails .d7
        trace := s.trace ++ [.data s.cur] ++ (([.d4, .d5, .d6, .d7] : List Line).filter s.writeFails).map .log
        draws := s.draws + (([.d4, .d5, .d6, .d7] : List Line).filter s.writeFails).length }

/-- R115: the tick of phase `ENH`: `EN` written high, `EN(1)` then `WAIT(PW)`, the pulse-width wait loaded. A failed write (R110) leaves a draw
on the line, is logged before the wait, and the phase goes on all the same; should the line fall by it, the levels are latched (R47). -/
def Obligations.EnableHighPhase : Prop :=
  ∀ s : State, s.rstIn = false → s.ph = .enh →
    step s = .next { s with
      ph := .pw, dly := s.params.tPw, now := s.now + 1, host := hostNext false s.host, env := s.env.tail
      en := if s.writeFails .en then Config.freeLevel s.draws else true
      lineErr := s.lineErr || s.writeFails .en
      trace := s.trace ++ [.en true] ++ (if s.writeFails .en then [.log .en] else []) ++ [.wait .pw]
      lat := if s.en && s.writeFails .en && !Config.freeLevel s.draws then s.lat ++ [(s.rs, s.dn)] else s.lat
      draws := if s.writeFails .en then s.draws + 1 else s.draws }

/-- R118, R47: the tick of phase `ENL`: `EN` written low, `EN(0)` then the `WAIT` of the gap, which is `T_INIT[SEQ]` after a handshake pulse and
`T_SETTLE` after a nibble of a byte; the levels are latched if the line fell. A failed write (R110) leaves a draw and is logged before the wait. -/
def Obligations.EnableLowPhaseLatches : Prop :=
  ∀ (s : State) (k : WaitKind) (ticks : Nat), s.rstIn = false → s.ph = .enl →
    ((∃ j : Fin 4, s.seq = BitVec.ofNat 3 j.val ∧ k = .init j ∧ ticks = s.params.tInit j) ∨
      (4#3 ≤ s.seq ∧ k = .settle ∧ ticks = s.params.tSettle)) →
    step s = .next { s with
      ph := .gap, dly := ticks, now := s.now + 1, host := hostNext false s.host, env := s.env.tail
      en := if s.writeFails .en then Config.freeLevel s.draws else false
      lineErr := s.lineErr || s.writeFails .en
      trace := s.trace ++ [.en false] ++ (if s.writeFails .en then [.log .en] else []) ++ [.wait k]
      lat := if s.en && !(s.writeFails .en && Config.freeLevel s.draws) then s.lat ++ [(s.rs, s.dn)] else s.lat
      draws := if s.writeFails .en then s.draws + 1 else s.draws }

/-- R131, R117, R119, R166, R35: each wait phase counts `DLY` down and, at zero, `PRE` goes to `RSW`, `PW` to `ENL`, `LONG` to `IDLE`. -/
def Obligations.WaitPhasesCountAndLeave : Prop :=
  ∀ s : State, s.rstIn = false →
    ((s.ph = .pre ∨ s.ph = .pw ∨ s.ph = .gap ∨ s.ph = .long) → s.dly ≠ 0 →
      step s = .next { s with dly := s.dly - 1, now := s.now + 1, host := hostNext false s.host, env := s.env.tail }) ∧
    (s.dly = 0 → s.ph = .pre →
      step s = .next { s with ph := .rsw, now := s.now + 1, host := hostNext false s.host, env := s.env.tail }) ∧
    (s.dly = 0 → s.ph = .pw →
      step s = .next { s with ph := .enl, now := s.now + 1, host := hostNext false s.host, env := s.env.tail }) ∧
    (s.dly = 0 → s.ph = .long →
      step s = .next { s with ph := .idle, now := s.now + 1, host := hostNext false s.host, env := s.env.tail })

/-- R120: `exit_GAP`, its cases for every value `SEQ` and `OPC` take. -/
def Obligations.GapExitChoosesTheNextTransfer : Prop :=
  ∀ s : State, s.rstIn = false → s.ph = .gap → s.dly = 0 →
    (∀ j : Fin 3, s.seq = BitVec.ofNat 3 j.val →
      step s = .next { s with
        seq := BitVec.ofNat 3 (j.val + 1), byte := s.params.initNib j.succ ++ 0x0#4, ph := .rsw
        now := s.now + 1, host := hostNext false s.host, env := s.env.tail }) ∧
    (s.seq = 3#3 →
      step s = .next { s with
        seq := 4#3, nib := false, ph := .rsw
        byte := s.params.funcsetBase ||| ((BitVec.ofBool s.argN).setWidth 8 <<< 3) ||| ((BitVec.ofBool s.argF).setWidth 8 <<< 2)
        now := s.now + 1, host := hostNext false s.host, env := s.env.tail }) ∧
    (4#3 ≤ s.seq → s.nib = false →
      step s = .next { s with
        nib := true, ph := .rsw, now := s.now + 1, host := hostNext false s.host, env := s.env.tail }) ∧
    (4#3 ≤ s.seq → s.nib = true → s.opc = .clear →
      step s = .next { s with
        dly := s.params.tLong, trace := s.trace ++ [.wait .long], ph := .long
        now := s.now + 1, host := hostNext false s.host, env := s.env.tail }) ∧
    (4#3 ≤ s.seq → s.nib = true → s.opc = .init →
      step s = .next { s with
        inited := true, cfgN := s.argN, cfgF := s.argF, ph := .idle
        now := s.now + 1, host := hostNext false s.host, env := s.env.tail }) ∧
    (4#3 ≤ s.seq → s.nib = true → (s.opc = .cmd ∨ s.opc = .data ∨ s.opc = .dispctl) →
      step s = .next { s with
        ph := .idle, now := s.now + 1, host := hostNext false s.host, env := s.env.tail })

/-! ### Whole operations -/

/-- R36: a wait phase entered with `DLY = T` counts for `T` ticks, in which the phase, the lines and the ghosts stand still, and leaves in the
tick after. -/
def Obligations.WaitPhaseLastsOneMoreThanItsDelay : Prop :=
  ∀ s : State, s.noReset = true → (s.ph = .pre ∨ s.ph = .pw ∨ s.ph = .gap ∨ s.ph = .long) →
    (∀ j, j ≤ s.dly → ∃ h, runTicks j s = .next { s with
      dly := s.dly - j, now := s.now + j, host := h, env := s.env.drop j }) ∧
    ∃ t, runTicks (s.dly + 1) s = .next t ∧ t.ph ≠ s.ph

/-- R122: one pulse as a whole, up to the tick that leaves `GAP`: its six events, the latched nibble, the levels, its length, and the ticks in
which `EN` is high. -/
def Obligations.NibblePulseAsAWhole : Prop :=
  ∀ s : State, s.noReset = true → s.noFailure = true → s.ph = .rsw → s.en = false →
    (∃ h, runTicks (s.params.tPw + waitTicks s.params (gapKind s.seq) + 5) s = .next { s with
      rs := s.rsq, d4 := s.cur.getLsbD 0, d5 := s.cur.getLsbD 1, d6 := s.cur.getLsbD 2, d7 := s.cur.getLsbD 3
      ph := .gap, dly := 0
      trace := s.trace ++ pulse s.rsq s.cur (gapKind s.seq)
      lat := s.lat ++ [(s.rsq, s.cur)]
      now := s.now + (s.params.tPw + waitTicks s.params (gapKind s.seq) + 5)
      host := h, env := s.env.drop (s.params.tPw + waitTicks s.params (gapKind s.seq) + 5) }) ∧
    (∀ j t, j ≤ s.params.tPw + waitTicks s.params (gapKind s.seq) + 5 → runTicks j s = .next t →
      (t.en = true ↔ 3 ≤ j ∧ j < 3 + (s.params.tPw + 2)))

/-- R152: for every byte and both levels, a `CMD` or `DATA` offered to a ready engine sends exactly twelve events, latches exactly the two
halves, high first, which pair to the byte, and ends as the rule says. -/
def Obligations.ByteTransferAsAWhole : Prop :=
  ∀ (s : State) (b : Byte) (level : Bool) (rest : List HostAct),
    s.noReset = true → s.noFailure = true → s.ph = .idle → s.inited = true →
    s.host = .offer (encodeRequest (if level then .data b else .cmd b)) :: rest →
    ∃ t, runTicks (2 * s.params.tPw + 2 * s.params.tSettle + 13) s = .next t ∧
      t.trace = s.trace ++
        [.rs level, .data (hi b), .en true, .wait .pw, .en false, .wait .settle,
         .rs level, .data (lo b), .en true, .wait .pw, .en false, .wait .settle] ∧
      t.lat = s.lat ++ [(level, hi b), (level, lo b)] ∧
      pairNibbles [(level, hi b), (level, lo b)] = some [(level, b)] ∧
      t.ph = .idle ∧ t.en = false ∧ t.rs = level ∧ t.dn = lo b ∧ t.byte = b ∧ t.nib = true ∧ t.seq = 4#3 ∧
      t.inited = s.inited ∧ t.cfgN = s.cfgN ∧ t.cfgF = s.cfgF ∧
      t.lineErr = s.lineErr ∧ t.seqErr = s.seqErr ∧ t.illReq = s.illReq ∧ t.disp = s.disp

/-- R167: `CLEAR` offered to a ready engine: thirteen events, the last one the long wait; 1696 ticks with the defaults. -/
def Obligations.ClearAsAWhole : Prop :=
  2 * Cfg.default.tPw + 2 * Cfg.default.tSettle + Cfg.default.tLong + 14 = 1696 ∧
  ∀ (s : State) (rest : List HostAct),
    s.noReset = true → s.noFailure = true → s.ph = .idle → s.inited = true → s.host = .offer (encodeRequest .clear) :: rest →
    ∃ t, runTicks (2 * s.params.tPw + 2 * s.params.tSettle + s.params.tLong + 14) s = .next t ∧
      t.trace = s.trace ++
        [.rs false, .data (hi s.params.clearCode), .en true, .wait .pw, .en false, .wait .settle,
         .rs false, .data (lo s.params.clearCode), .en true, .wait .pw, .en false, .wait .settle, .wait .long] ∧
      t.lat = s.lat ++ [(false, hi s.params.clearCode), (false, lo s.params.clearCode)] ∧
      t.ph = .idle ∧ t.en = false ∧ t.rs = false ∧ t.dn = lo s.params.clearCode ∧ t.opc = .clear ∧
      t.inited = s.inited ∧ t.cfgN = s.cfgN ∧ t.cfgF = s.cfgF ∧
      t.lineErr = s.lineErr ∧ t.seqErr = s.seqErr ∧ t.illReq = s.illReq ∧ t.disp = s.disp

/-- R171: `DISPCTL d, c, k` offered to a ready engine: the twelve events of a command byte built from the three flags, and no long wait;
95 ticks with the defaults. -/
def Obligations.DispctlAsAWhole : Prop :=
  2 * Cfg.default.tPw + 2 * Cfg.default.tSettle + 13 = 95 ∧
  ∀ (s : State) (d c k : Bool) (rest : List HostAct),
    s.noReset = true → s.noFailure = true → s.ph = .idle → s.inited = true →
    s.host = .offer (encodeRequest (.dispctl d c k)) :: rest →
    ∃ t, runTicks (2 * s.params.tPw + 2 * s.params.tSettle + 13) s = .next t ∧
      t.trace = s.trace ++ byteEvents false (displayControlByte s.params d c k) ∧
      t.lat = s.lat ++ byteNibbles false (displayControlByte s.params d c k) ∧
      t.ph = .idle ∧ t.en = false ∧ t.rs = false ∧ t.dn = lo (displayControlByte s.params d c k) ∧
      t.byte = displayControlByte s.params d c k ∧ t.nib = true ∧ t.seq = 4#3 ∧
      t.inited = s.inited ∧ t.cfgN = s.cfgN ∧ t.cfgF = s.cfgF ∧
      t.lineErr = s.lineErr ∧ t.seqErr = s.seqErr ∧ t.illReq = s.illReq

/-- R135: `INIT n, f` offered to an idle engine, initialized or not: the power-on wait, four handshake pulses, the function-set byte, nothing
more; the six latched nibbles; and the end state. R136 gives the number of ticks. -/
def Obligations.InitAsAWhole : Prop :=
  ∀ (s : State) (n f : Bool) (rest : List HostAct),
    s.noReset = true → s.noFailure = true → s.ph = .idle → s.host = .offer (encodeRequest (.init n f)) :: rest →
    ∃ t, runTicks (s.params.tPowerOn + s.params.tInit0 + s.params.tInit1 + s.params.tInit2 + s.params.tInit3 +
        6 * s.params.tPw + 2 * s.params.tSettle + 38) s = .next t ∧
      t.trace = s.trace ++ [.wait .powerOn] ++ pulse false s.params.initNib0 (.init 0) ++ pulse false s.params.initNib1 (.init 1) ++
        pulse false s.params.initNib2 (.init 2) ++ pulse false s.params.initNib3 (.init 3) ++
        pulse false (hi (functionSetByte s.params n f)) .settle ++ pulse false (lo (functionSetByte s.params n f)) .settle ∧
      t.lat = s.lat ++ [(false, s.params.initNib0), (false, s.params.initNib1), (false, s.params.initNib2), (false, s.params.initNib3),
        (false, hi (functionSetByte s.params n f)), (false, lo (functionSetByte s.params n f))] ∧
      t.ph = .idle ∧ t.inited = true ∧ t.cfgN = n ∧ t.cfgF = f ∧ t.en = false ∧ t.rs = false ∧
      t.dn = lo (functionSetByte s.params n f) ∧ t.opc = .init ∧ t.seq = 4#3 ∧ t.nib = true ∧ t.byte = functionSetByte s.params n f ∧
      t.lineErr = s.lineErr ∧ t.seqErr = s.seqErr ∧ t.illReq = s.illReq ∧ t.disp = s.disp

/-- R137: a second `INIT` with the same arguments takes the same number of ticks, emits the same events again, and ends in the same state but
for the ghosts and the inputs. -/
def Obligations.RepeatedInitIsIdempotentInEffect : Prop :=
  ∀ (s : State) (n f : Bool) (rest : List HostAct),
    s.noReset = true → s.noFailure = true → s.ph = .idle →
    s.host = .offer (encodeRequest (.init n f)) :: .offer (encodeRequest (.init n f)) :: rest →
    ∃ t u es ns,
      runTicks (s.params.tPowerOn + s.params.tInit0 + s.params.tInit1 + s.params.tInit2 + s.params.tInit3 +
        6 * s.params.tPw + 2 * s.params.tSettle + 38) s = .next t ∧
      runTicks (s.params.tPowerOn + s.params.tInit0 + s.params.tInit1 + s.params.tInit2 + s.params.tInit3 +
        6 * s.params.tPw + 2 * s.params.tSettle + 38) t = .next u ∧
      t.ph = .idle ∧ t.trace = s.trace ++ es ∧ u.trace = t.trace ++ es ∧ t.lat = s.lat ++ ns ∧ u.lat = t.lat ++ ns ∧
      u = { t with trace := u.trace, lat := u.lat, now := u.now, host := u.host, env := u.env }

/-- R254, R136, R153, R167: how many ticks each accepted request still takes after its acceptance tick. -/
def Obligations.AcceptanceFixesTheDuration : Prop :=
  ∀ (s : State) (b : Byte) (d c k n f : Bool), s.ph = .idle →
    (∃ t, exec (.init n f) s = .next t ∧
      t.ticksLeft + 1 = s.params.tPowerOn + s.params.tInit0 + s.params.tInit1 + s.params.tInit2 + s.params.tInit3 +
        6 * s.params.tPw + 2 * s.params.tSettle + 38) ∧
    (s.inited = true →
      (∃ t, exec (.cmd b) s = .next t ∧ t.ticksLeft + 1 = 2 * s.params.tPw + 2 * s.params.tSettle + 13) ∧
      (∃ t, exec (.data b) s = .next t ∧ t.ticksLeft + 1 = 2 * s.params.tPw + 2 * s.params.tSettle + 13) ∧
      (∃ t, exec (.dispctl d c k) s = .next t ∧ t.ticksLeft + 1 = 2 * s.params.tPw + 2 * s.params.tSettle + 13) ∧
      (∃ t, exec .clear s = .next t ∧ t.ticksLeft + 1 = 2 * s.params.tPw + 2 * s.params.tSettle + s.params.tLong + 14))

/-- R154, R31, R222: from every busy state, every tick without a reset brings the end of the operation exactly one tick nearer, whatever the
host does and whichever writes fail; so nothing cancels, repeats or delays it. -/
def Obligations.EveryBusyTickCountsDown : Prop :=
  ∀ s t : State, s.rstIn = false → s.ph ≠ .idle → step s = .next t → t.ticksLeft + 1 = s.ticksLeft

/-- R154, R64: from every state, with no reset coming, the engine is idle after the ticks it has left, and not before. -/
def Obligations.EveryOperationEnds : Prop :=
  ∀ s : State, s.noReset = true →
    (∃ t, runTicks s.ticksLeft s = .next t ∧ t.ph = .idle) ∧
    (∀ j t, j < s.ticksLeft → runTicks j s = .next t → t.ph ≠ .idle)

/-! ### Invariants that every step keeps, from any state -/

/-- R24, R25, R34, R38, R215: every step keeps the sequencer's registers fitting together. -/
def Obligations.StepKeepsSequencing : Prop :=
  ∀ s t : State, s.Sequenced → step s = .next t → t.Sequenced

/-- R70, R71, R31: every step keeps `TRACE` a list of whole pulses in order, whichever writes fail. -/
def Obligations.StepKeepsBusOrder : Prop :=
  ∀ s t : State, s.BusOrdered → step s = .next t → t.BusOrdered

/-- R122(d), R224: where no write can fail, every step keeps `EN` high exactly in `PW` and `ENL`, and `LINEERR` clear. -/
def Obligations.StepKeepsEnableInItsPhases : Prop :=
  ∀ s t : State, s.EnableFollows → step s = .next t → t.EnableFollows

/-- R121: where no write can fail, every step keeps the lines holding the transfer's level and nibble through the pulse. -/
def Obligations.StepKeepsLinesThroughThePulse : Prop :=
  ∀ s t : State, s.LinesHold → step s = .next t → t.LinesHold

/-- R64: where no write can fail, every step keeps the nibbles paired: an idle engine has made an even number of strobes. -/
def Obligations.StepKeepsNibblesPaired : Prop :=
  (∀ s t : State, s.Sequenced → s.EnableFollows → s.Paired → step s = .next t → t.Paired) ∧
  (∀ s : State, s.Paired → s.params.hasWfail = false → s.ph = .idle → s.lat.length % 2 = 0)

/-- R36, R11: with parameters that meet R11, `DLY` never leaves its `DLY_W` bits. -/
def Obligations.StepKeepsDelayInItsWidth : Prop :=
  ∀ s t : State, s.params.wf = true → s.DelayFits → step s = .next t → t.params = s.params ∧ t.DelayFits

/-- R50: the state after reset meets all the invariants, and its parameters meet R11. -/
def Obligations.ResetMeetsTheInvariants : Prop :=
  State.reset.Sequenced ∧ State.reset.BusOrdered ∧ State.reset.EnableFollows ∧ State.reset.LinesHold ∧ State.reset.Paired ∧
  State.reset.DelayFits ∧ State.reset.params.wf = true ∧ State.reset.params.bytesDistinct = true

/-! ### Rules of the whole machine -/

/-- R204, R213: no cause and no input stops the engine: every step and every instruction answers a next state. -/
def Obligations.NothingStopsTheEngine : Prop :=
  (∀ s : State, ∃ t, step s = .next t) ∧ (∀ (i : Instr) (s : State), ∃ t, exec i s = .next t)

/-- R39: the sticky flags: no step clears them, raising a cause sets its own flag and touches no register, only reset clears them. -/
def Obligations.StickyFlagsOnlyResetClears : Prop :=
  (∀ s t : State, s.rstIn = false → step s = .next t →
    (s.lineErr = true → t.lineErr = true) ∧ (s.seqErr = true → t.seqErr = true) ∧ (s.illReq = true → t.illReq = true)) ∧
  (∀ (s : State) (l : Line) (w : ReqWord),
    raise (.lineWriteFailure l) s = { s with lineErr := true, trace := s.trace ++ [.log l] } ∧
    raise (.sequenceError w) s = { s with seqErr := true } ∧
    raise (.illegalRequest w) s = { s with illReq := true }) ∧
  (∀ s : State, s.rstIn = true → ∃ t, step s = .next t ∧ t.lineErr = false ∧ t.seqErr = false ∧ t.illReq = false)

/-- R201, R207, R208, R110: each flag is set only by its own cause: `SEQERR` only by a legal request other than `INIT` on the port of an idle
engine with `INITED = 0`, `ILLREQ` only by an illegal word on the port of an idle engine, `LINEERR` only by the failing write of a line that
the tick's phase writes. The port is read once the session calls of the tick have begun (log 7, DEDUCED). -/
def Obligations.FlagsAreSetOnlyByTheirCauses : Prop :=
  ∀ s t : State, s.rstIn = false → step s = .next t →
    (s.seqErr = false → t.seqErr = true →
      s.ph = .idle ∧ s.inited = false ∧ (sessionCalls s).reqValid = true ∧
      ∃ i, decodeRequest (sessionCalls s).reqWord = .ok i ∧ ∀ n f, i ≠ .init n f) ∧
    (s.illReq = false → t.illReq = true →
      s.ph = .idle ∧ (sessionCalls s).reqValid = true ∧ ∃ why, decodeRequest (sessionCalls s).reqWord = .error why) ∧
    (s.lineErr = false → t.lineErr = true →
      s.params.hasWfail = true ∧ s.wfailIn ≠ 0#6 ∧
      ((s.ph = .rsw ∧ s.writeFails .rs = true) ∨
        (s.ph = .dw ∧ ∃ l, (l = .d4 ∨ l = .d5 ∨ l = .d6 ∨ l = .d7) ∧ s.writeFails l = true) ∨
        ((s.ph = .enh ∨ s.ph = .enl) ∧ s.writeFails .en = true)))

/-- R38, R215: `INITED` changes only at a reset, at the acceptance of `INIT`, and at its end. -/
def Obligations.OnlyInitAndResetChangeTheMode : Prop :=
  ∀ s t : State, step s = .next t → t.inited ≠ s.inited →
    (t.inited = false ∧ s.rstIn = true) ∨
    (t.inited = false ∧ s.ph = .idle ∧ t.ph = .pre ∧ t.opc = .init) ∨
    (t.inited = true ∧ s.ph = .gap ∧ s.dly = 0 ∧ s.opc = .init ∧ s.nib = true ∧ t.ph = .idle)

/-- R40: `CFG` is written only by the last step of an `INIT` (and by reset), with that `INIT`'s arguments; no other request changes it. -/
def Obligations.ConfigurationIsWrittenOnlyByInit : Prop :=
  ∀ s t : State, s.rstIn = false → step s = .next t → (t.cfgN, t.cfgF) ≠ (s.cfgN, s.cfgF) →
    s.ph = .gap ∧ s.dly = 0 ∧ s.opc = .init ∧ t.inited = true ∧ t.cfgN = s.argN ∧ t.cfgF = s.argF

/-- R21, R28, R121: a tick without reset changes `RS` only in `RSW`, the data lines only in `DW`, and `EN` only in `ENH` and `ENL`. -/
def Obligations.LinesChangeOnlyInTheirPhases : Prop :=
  ∀ s t : State, s.rstIn = false → step s = .next t →
    (t.rs ≠ s.rs → s.ph = .rsw) ∧
    (t.d4 ≠ s.d4 ∨ t.d5 ≠ s.d5 ∨ t.d6 ≠ s.d6 ∨ t.d7 ≠ s.d7 → s.ph = .dw) ∧
    (t.en ≠ s.en → s.ph = .enh ∨ s.ph = .enl)

/-- R46, R47, R70, R10: a tick without reset counts `NOW`, only appends to `TRACE`, appends to `LAT` exactly the levels before a fall of `EN`,
and never changes a parameter. -/
def Obligations.GhostsRecordTheTick : Prop :=
  ∀ s t : State, s.rstIn = false → step s = .next t →
    t.params = s.params ∧ t.now = s.now + 1 ∧ (∃ es, t.trace = s.trace ++ es) ∧
    t.lat = if s.en = true ∧ t.en = false then s.lat ++ [(s.rs, s.dn)] else s.lat

/-- R205: which writes fail changes the levels of the lines, `LINEERR` and the `LOG` events, and nothing of the engine's own course. -/
def Obligations.FailuresDoNotSteerTheEngine : Prop :=
  ∀ (s t u : State) (e : List EnvTick), s.rstIn = false → State.rstIn { s with env := e } = false →
    step s = .next t → step { s with env := e } = .next u →
    u.ph = t.ph ∧ u.opc = t.opc ∧ u.seq = t.seq ∧ u.nib = t.nib ∧ u.byte = t.byte ∧ u.rsq = t.rsq ∧
    u.argN = t.argN ∧ u.argF = t.argF ∧ u.dly = t.dly ∧ u.inited = t.inited ∧ u.cfgN = t.cfgN ∧ u.cfgF = t.cfgF ∧
    u.seqErr = t.seqErr ∧ u.illReq = t.illReq ∧ u.disp = t.disp ∧ u.host = t.host ∧ u.now = t.now ∧
    u.trace.filter (fun x => match x with | .log _ => false | _ => true) =
      t.trace.filter (fun x => match x with | .log _ => false | _ => true)

/-- R230, R50: a tick with `rst` asserted puts every register to the value of R50's table, from any state, and does nothing else. That the
parameters, the host, the environment and the draws go on is the model's own (log 8, DEDUCED and DESIGN CHOICE). -/
def Obligations.ResetTickIsThePowerCycle : Prop :=
  ∀ s : State, s.rstIn = true →
    step s = .next {
      params := s.params
      rs := false, en := false, d4 := false, d5 := false, d6 := false, d7 := false
      ph := .idle, opc := .none, seq := 0#3, nib := false, byte := 0x00#8, rsq := false, argN := false, argF := false, dly := 0
      inited := false, cfgN := false, cfgF := false, lineErr := false, seqErr := false, illReq := false
      disp := ⟨false, false, false⟩, trace := [], lat := [], now := 0
      host := hostNext false s.host, env := s.env.tail, draws := s.draws }

/-- R33, R37, R40: the outputs: `req_ready` and `BUSY`, and where each bit of `status` and `cfg` comes from. -/
def Obligations.StatusAndConfigurationLayout : Prop :=
  ∀ s : State,
    (s.reqReady = true ↔ s.ph = .idle) ∧ (s.busy = true ↔ s.ph ≠ .idle) ∧
    (s.status.getLsbD 0 = s.busy ∧ s.status.getLsbD 1 = s.inited ∧ s.status.getLsbD 2 = s.lineErr ∧
      s.status.getLsbD 3 = s.seqErr ∧ s.status.getLsbD 4 = s.illReq) ∧
    (s.cfgOut.getLsbD 1 = s.cfgN ∧ s.cfgOut.getLsbD 0 = s.cfgF)

/-! ### The Display Session -/

/-- R182: `S.DISPLAY d, c, k` called on an idle engine records the triple whatever becomes of the request, and offers `DISPCTL d, c, k`: the
tick accepts it, or drops it while `INITED = 0` (R207). That `DISP` is written and the request taken in this one tick is the model's reading
(log 7, DEDUCED). -/
def Obligations.SessionDisplayRecordsAndOffers : Prop :=
  ∀ (s : State) (d c k : Bool) (rest : List HostAct),
    s.rstIn = false → s.ph = .idle → s.host = .call (.display d c k) :: rest →
    (SessionOp.display d c k).requests = [.dispctl d c k] ∧
    (s.inited = true → step s = .next { s with
      disp := ⟨d, c, k⟩, opc := .dispctl, seq := 4#3, nib := false, rsq := false
      byte := displayControlByte s.params d c k, ph := .rsw
      now := s.now + 1, host := rest, env := s.env.tail }) ∧
    (s.inited = false → step s = .next { s with
      disp := ⟨d, c, k⟩, seqErr := true, now := s.now + 1, host := rest, env := s.env.tail })

/-- R183, R254, R188: `S.WRITE text` called on an idle, ready engine sends every byte of the text as data, in order, and nothing else: exactly
those bytes pair up in what the controller latched; `DISP` is unchanged. The count of ticks from the one in which the call stands at the head
rests on the model's reading that its first request is on the port in that tick (log 7, DEDUCED). -/
def Obligations.SessionWriteSendsExactlyTheText : Prop :=
  ∀ (s : State) (text : List Byte) (rest : List HostAct),
    s.noReset = true → s.noFailure = true → s.ph = .idle → s.inited = true → s.host = .call (.write text) :: rest →
    ∃ t, runTicks (text.length * (2 * s.params.tPw + 2 * s.params.tSettle + 13)) s = .next t ∧
      t.ph = .idle ∧ t.trace = s.trace ++ text.flatMap (byteEvents true) ∧
      (∃ ns, t.lat = s.lat ++ ns ∧ pairNibbles ns = some (text.map (fun b => (true, b)))) ∧
      t.inited = true ∧ t.disp = s.disp

/-- R185: `S.CLEAR` then `S.DISPLAY 1, 1, 1`: the clear leaves `DISP` as it was and is offered first; the display call leaves `(1, 1, 1)` and is
offered next. Where the engine is not initialized both requests are dropped (R207) and `DISP` ends the same. The ticks in which each request is taken
and `DISP` is written are the model's reading (log 7, DEDUCED). -/
def Obligations.ClearThenDisplayLeavesAllOn : Prop :=
  ∀ (s : State) (rest : List HostAct),
    s.noReset = true → s.ph = .idle → s.host = .call .clear :: .call (.display true true true) :: rest →
    (s.inited = true →
      (∃ a, step s = .next a ∧ a.opc = .clear ∧ a.disp = s.disp) ∧
      ∃ t u, runTicks (2 * s.params.tPw + 2 * s.params.tSettle + s.params.tLong + 14) s = .next t ∧
        t.ph = .idle ∧ t.disp = s.disp ∧ t.host = .call (.display true true true) :: rest ∧
        step t = .next u ∧ u.disp = ⟨true, true, true⟩ ∧ u.opc = .dispctl ∧
        u.byte = displayControlByte s.params true true true) ∧
    (s.inited = false →
      ∃ t u, step s = .next t ∧ t.disp = s.disp ∧ t.seqErr = true ∧ t.host = .call (.display true true true) :: rest ∧
        step t = .next u ∧ u.disp = ⟨true, true, true⟩ ∧ u.ph = .idle)

/-- R180, R182: a tick without reset changes `DISP` only to the triple of a display call that begins in it: nothing but calls with an empty text
stands before that call. That a call begins only in a tick with `PH = IDLE` is the model's reading (log 7, DEDUCED). -/
def Obligations.OnlySessionDisplayWritesDisp : Prop :=
  ∀ s t : State, s.rstIn = false → step s = .next t → t.disp ≠ s.disp →
    s.ph = .idle ∧ ∃ (d c k : Bool) (before after : List HostAct),
      s.host = before ++ .call (.display d c k) :: after ∧ (∀ a ∈ before, a = .call (.write [])) ∧ t.disp = ⟨d, c, k⟩

/-- R187, R188, R189: what the serial lines make the host offer: `clr` one `CLEAR`, `display:<text>` one `DATA` per byte with no command between,
any other line nothing. -/
def Obligations.SerialLinesExpandToRequests : Prop :=
  ∀ (text : List Byte) (before after : List SerialLine),
    serialHost (before ++ [.clr, .unknown, .display text, .led, .empty] ++ after) =
      serialHost before ++ [.call .clear, .call (.write text)] ++ serialHost after ∧
    SessionOp.requests .clear = [.clear] ∧
    (SessionOp.requests (.write text)).map encodeRequest = text.map (fun b => 0x3#4 ++ b)
end

