-- ==== Sys2Proof/Laws/State.lean ====
section
/-! SUPPORT. One lemma per field per named update of the state, true by `rfl`: no later proof unfolds `emit`, `enterWait`, `loadTransfer`,
`setLine` or `endTick` to see what they leave alone. -/

namespace Sys2Proof.Machine

section
variable (s : State)

@[simp] theorem emit_params (e : Event) : (emit e s).params = s.params := rfl
@[simp] theorem emit_rs (e : Event) : (emit e s).rs = s.rs := rfl
@[simp] theorem emit_en (e : Event) : (emit e s).en = s.en := rfl
@[simp] theorem emit_d4 (e : Event) : (emit e s).d4 = s.d4 := rfl
@[simp] theorem emit_d5 (e : Event) : (emit e s).d5 = s.d5 := rfl
@[simp] theorem emit_d6 (e : Event) : (emit e s).d6 = s.d6 := rfl
@[simp] theorem emit_d7 (e : Event) : (emit e s).d7 = s.d7 := rfl
@[simp] theorem emit_ph (e : Event) : (emit e s).ph = s.ph := rfl
@[simp] theorem emit_opc (e : Event) : (emit e s).opc = s.opc := rfl
@[simp] theorem emit_seq (e : Event) : (emit e s).seq = s.seq := rfl
@[simp] theorem emit_nib (e : Event) : (emit e s).nib = s.nib := rfl
@[simp] theorem emit_byte (e : Event) : (emit e s).byte = s.byte := rfl
@[simp] theorem emit_rsq (e : Event) : (emit e s).rsq = s.rsq := rfl
@[simp] theorem emit_argN (e : Event) : (emit e s).argN = s.argN := rfl
@[simp] theorem emit_argF (e : Event) : (emit e s).argF = s.argF := rfl
@[simp] theorem emit_dly (e : Event) : (emit e s).dly = s.dly := rfl
@[simp] theorem emit_inited (e : Event) : (emit e s).inited = s.inited := rfl
@[simp] theorem emit_cfgN (e : Event) : (emit e s).cfgN = s.cfgN := rfl
@[simp] theorem emit_cfgF (e : Event) : (emit e s).cfgF = s.cfgF := rfl
@[simp] theorem emit_lineErr (e : Event) : (emit e s).lineErr = s.lineErr := rfl
@[simp] theorem emit_seqErr (e : Event) : (emit e s).seqErr = s.seqErr := rfl
@[simp] theorem emit_illReq (e : Event) : (emit e s).illReq = s.illReq := rfl
@[simp] theorem emit_disp (e : Event) : (emit e s).disp = s.disp := rfl
@[simp] theorem emit_lat (e : Event) : (emit e s).lat = s.lat := rfl
@[simp] theorem emit_now (e : Event) : (emit e s).now = s.now := rfl
@[simp] theorem emit_host (e : Event) : (emit e s).host = s.host := rfl
@[simp] theorem emit_env (e : Event) : (emit e s).env = s.env := rfl
@[simp] theorem emit_draws (e : Event) : (emit e s).draws = s.draws := rfl
@[simp] theorem emit_trace (e : Event) : (emit e s).trace = s.trace ++ [e] := rfl

@[simp] theorem enterWait_params (k : WaitKind) (p : Phase) : (enterWait k p s).params = s.params := rfl
@[simp] theorem enterWait_rs (k : WaitKind) (p : Phase) : (enterWait k p s).rs = s.rs := rfl
@[simp] theorem enterWait_en (k : WaitKind) (p : Phase) : (enterWait k p s).en = s.en := rfl
@[simp] theorem enterWait_d4 (k : WaitKind) (p : Phase) : (enterWait k p s).d4 = s.d4 := rfl
@[simp] theorem enterWait_d5 (k : WaitKind) (p : Phase) : (enterWait k p s).d5 = s.d5 := rfl
@[simp] theorem enterWait_d6 (k : WaitKind) (p : Phase) : (enterWait k p s).d6 = s.d6 := rfl
@[simp] theorem enterWait_d7 (k : WaitKind) (p : Phase) : (enterWait k p s).d7 = s.d7 := rfl
@[simp] theorem enterWait_opc (k : WaitKind) (p : Phase) : (enterWait k p s).opc = s.opc := rfl
@[simp] theorem enterWait_seq (k : WaitKind) (p : Phase) : (enterWait k p s).seq = s.seq := rfl
@[simp] theorem enterWait_nib (k : WaitKind) (p : Phase) : (enterWait k p s).nib = s.nib := rfl
@[simp] theorem enterWait_byte (k : WaitKind) (p : Phase) : (enterWait k p s).byte = s.byte := rfl
@[simp] theorem enterWait_rsq (k : WaitKind) (p : Phase) : (enterWait k p s).rsq = s.rsq := rfl
@[simp] theorem enterWait_argN (k : WaitKind) (p : Phase) : (enterWait k p s).argN = s.argN := rfl
@[simp] theorem enterWait_argF (k : WaitKind) (p : Phase) : (enterWait k p s).argF = s.argF := rfl
@[simp] theorem enterWait_inited (k : WaitKind) (p : Phase) : (enterWait k p s).inited = s.inited := rfl
@[simp] theorem enterWait_cfgN (k : WaitKind) (p : Phase) : (enterWait k p s).cfgN = s.cfgN := rfl
@[simp] theorem enterWait_cfgF (k : WaitKind) (p : Phase) : (enterWait k p s).cfgF = s.cfgF := rfl
@[simp] theorem enterWait_lineErr (k : WaitKind) (p : Phase) : (enterWait k p s).lineErr = s.lineErr := rfl
@[simp] theorem enterWait_seqErr (k : WaitKind) (p : Phase) : (enterWait k p s).seqErr = s.seqErr := rfl
@[simp] theorem enterWait_illReq (k : WaitKind) (p : Phase) : (enterWait k p s).illReq = s.illReq := rfl
@[simp] theorem enterWait_disp (k : WaitKind) (p : Phase) : (enterWait k p s).disp = s.disp := rfl
@[simp] theorem enterWait_lat (k : WaitKind) (p : Phase) : (enterWait k p s).lat = s.lat := rfl
@[simp] theorem enterWait_now (k : WaitKind) (p : Phase) : (enterWait k p s).now = s.now := rfl
@[simp] theorem enterWait_host (k : WaitKind) (p : Phase) : (enterWait k p s).host = s.host := rfl
@[simp] theorem enterWait_env (k : WaitKind) (p : Phase) : (enterWait k p s).env = s.env := rfl
@[simp] theorem enterWait_draws (k : WaitKind) (p : Phase) : (enterWait k p s).draws = s.draws := rfl
@[simp] theorem enterWait_trace (k : WaitKind) (p : Phase) : (enterWait k p s).trace = s.trace ++ [.wait k] := rfl
@[simp] theorem enterWait_dly (k : WaitKind) (p : Phase) : (enterWait k p s).dly = waitTicks s.params k := rfl
@[simp] theorem enterWait_ph (k : WaitKind) (p : Phase) : (enterWait k p s).ph = p := rfl

@[simp] theorem loadTransfer_params (q : BitVec 3) (r : Bool) (b : Byte) : (loadTransfer q r b s).params = s.params := rfl
@[simp] theorem loadTransfer_rs (q : BitVec 3) (r : Bool) (b : Byte) : (loadTransfer q r b s).rs = s.rs := rfl
@[simp] theorem loadTransfer_en (q : BitVec 3) (r : Bool) (b : Byte) : (loadTransfer q r b s).en = s.en := rfl
@[simp] theorem loadTransfer_d4 (q : BitVec 3) (r : Bool) (b : Byte) : (loadTransfer q r b s).d4 = s.d4 := rfl
@[simp] theorem loadTransfer_d5 (q : BitVec 3) (r : Bool) (b : Byte) : (loadTransfer q r b s).d5 = s.d5 := rfl
@[simp] theorem loadTransfer_d6 (q : BitVec 3) (r : Bool) (b : Byte) : (loadTransfer q r b s).d6 = s.d6 := rfl
@[simp] theorem loadTransfer_d7 (q : BitVec 3) (r : Bool) (b : Byte) : (loadTransfer q r b s).d7 = s.d7 := rfl
@[simp] theorem loadTransfer_ph (q : BitVec 3) (r : Bool) (b : Byte) : (loadTransfer q r b s).ph = s.ph := rfl
@[simp] theorem loadTransfer_opc (q : BitVec 3) (r : Bool) (b : Byte) : (loadTransfer q r b s).opc = s.opc := rfl
@[simp] theorem loadTransfer_argN (q : BitVec 3) (r : Bool) (b : Byte) : (loadTransfer q r b s).argN = s.argN := rfl
@[simp] theorem loadTransfer_argF (q : BitVec 3) (r : Bool) (b : Byte) : (loadTransfer q r b s).argF = s.argF := rfl
@[simp] theorem loadTransfer_dly (q : BitVec 3) (r : Bool) (b : Byte) : (loadTransfer q r b s).dly = s.dly := rfl
@[simp] theorem loadTransfer_inited (q : BitVec 3) (r : Bool) (b : Byte) : (loadTransfer q r b s).inited = s.inited := rfl
@[simp] theorem loadTransfer_cfgN (q : BitVec 3) (r : Bool) (b : Byte) : (loadTransfer q r b s).cfgN = s.cfgN := rfl
@[simp] theorem loadTransfer_cfgF (q : BitVec 3) (r : Bool) (b : Byte) : (loadTransfer q r b s).cfgF = s.cfgF := rfl
@[simp] theorem loadTransfer_lineErr (q : BitVec 3) (r : Bool) (b : Byte) : (loadTransfer q r b s).lineErr = s.lineErr := rfl
@[simp] theorem loadTransfer_seqErr (q : BitVec 3) (r : Bool) (b : Byte) : (loadTransfer q r b s).seqErr = s.seqErr := rfl
@[simp] theorem loadTransfer_illReq (q : BitVec 3) (r : Bool) (b : Byte) : (loadTransfer q r b s).illReq = s.illReq := rfl
@[simp] theorem loadTransfer_disp (q : BitVec 3) (r : Bool) (b : Byte) : (loadTransfer q r b s).disp = s.disp := rfl
@[simp] theorem loadTransfer_trace (q : BitVec 3) (r : Bool) (b : Byte) : (loadTransfer q r b s).trace = s.trace := rfl
@[simp] theorem loadTransfer_lat (q : BitVec 3) (r : Bool) (b : Byte) : (loadTransfer q r b s).lat = s.lat := rfl
@[simp] theorem loadTransfer_now (q : BitVec 3) (r : Bool) (b : Byte) : (loadTransfer q r b s).now = s.now := rfl
@[simp] theorem loadTransfer_host (q : BitVec 3) (r : Bool) (b : Byte) : (loadTransfer q r b s).host = s.host := rfl
@[simp] theorem loadTransfer_env (q : BitVec 3) (r : Bool) (b : Byte) : (loadTransfer q r b s).env = s.env := rfl
@[simp] theorem loadTransfer_draws (q : BitVec 3) (r : Bool) (b : Byte) : (loadTransfer q r b s).draws = s.draws := rfl
@[simp] theorem loadTransfer_seq (q : BitVec 3) (r : Bool) (b : Byte) : (loadTransfer q r b s).seq = q := rfl
@[simp] theorem loadTransfer_nib (q : BitVec 3) (r : Bool) (b : Byte) : (loadTransfer q r b s).nib = false := rfl
@[simp] theorem loadTransfer_rsq (q : BitVec 3) (r : Bool) (b : Byte) : (loadTransfer q r b s).rsq = r := rfl
@[simp] theorem loadTransfer_byte (q : BitVec 3) (r : Bool) (b : Byte) : (loadTransfer q r b s).byte = b := rfl

@[simp] theorem setLine_params (l : Line) (v : Bool) : (setLine l v s).params = s.params := by cases l <;> rfl
@[simp] theorem setLine_ph (l : Line) (v : Bool) : (setLine l v s).ph = s.ph := by cases l <;> rfl
@[simp] theorem setLine_opc (l : Line) (v : Bool) : (setLine l v s).opc = s.opc := by cases l <;> rfl
@[simp] theorem setLine_seq (l : Line) (v : Bool) : (setLine l v s).seq = s.seq := by cases l <;> rfl
@[simp] theorem setLine_nib (l : Line) (v : Bool) : (setLine l v s).nib = s.nib := by cases l <;> rfl
@[simp] theorem setLine_byte (l : Line) (v : Bool) : (setLine l v s).byte = s.byte := by cases l <;> rfl
@[simp] theorem setLine_rsq (l : Line) (v : Bool) : (setLine l v s).rsq = s.rsq := by cases l <;> rfl
@[simp] theorem setLine_argN (l : Line) (v : Bool) : (setLine l v s).argN = s.argN := by cases l <;> rfl
@[simp] theorem setLine_argF (l : Line) (v : Bool) : (setLine l v s).argF = s.argF := by cases l <;> rfl
@[simp] theorem setLine_dly (l : Line) (v : Bool) : (setLine l v s).dly = s.dly := by cases l <;> rfl
@[simp] theorem setLine_inited (l : Line) (v : Bool) : (setLine l v s).inited = s.inited := by cases l <;> rfl
@[simp] theorem setLine_cfgN (l : Line) (v : Bool) : (setLine l v s).cfgN = s.cfgN := by cases l <;> rfl
@[simp] theorem setLine_cfgF (l : Line) (v : Bool) : (setLine l v s).cfgF = s.cfgF := by cases l <;> rfl
@[simp] theorem setLine_lineErr (l : Line) (v : Bool) : (setLine l v s).lineErr = s.lineErr := by cases l <;> rfl
@[simp] theorem setLine_seqErr (l : Line) (v : Bool) : (setLine l v s).seqErr = s.seqErr := by cases l <;> rfl
@[simp] theorem setLine_illReq (l : Line) (v : Bool) : (setLine l v s).illReq = s.illReq := by cases l <;> rfl
@[simp] theorem setLine_disp (l : Line) (v : Bool) : (setLine l v s).disp = s.disp := by cases l <;> rfl
@[simp] theorem setLine_trace (l : Line) (v : Bool) : (setLine l v s).trace = s.trace := by cases l <;> rfl
@[simp] theorem setLine_lat (l : Line) (v : Bool) : (setLine l v s).lat = s.lat := by cases l <;> rfl
@[simp] theorem setLine_now (l : Line) (v : Bool) : (setLine l v s).now = s.now := by cases l <;> rfl
@[simp] theorem setLine_host (l : Line) (v : Bool) : (setLine l v s).host = s.host := by cases l <;> rfl
@[simp] theorem setLine_env (l : Line) (v : Bool) : (setLine l v s).env = s.env := by cases l <;> rfl
@[simp] theorem setLine_draws (l : Line) (v : Bool) : (setLine l v s).draws = s.draws := by cases l <;> rfl
@[simp] theorem setLine_rs_rs (v : Bool) : (setLine .rs v s).rs = v := rfl
@[simp] theorem setLine_rs_en (v : Bool) : (setLine .rs v s).en = s.en := rfl
@[simp] theorem setLine_rs_d4 (v : Bool) : (setLine .rs v s).d4 = s.d4 := rfl
@[simp] theorem setLine_rs_d5 (v : Bool) : (setLine .rs v s).d5 = s.d5 := rfl
@[simp] theorem setLine_rs_d6 (v : Bool) : (setLine .rs v s).d6 = s.d6 := rfl
@[simp] theorem setLine_rs_d7 (v : Bool) : (setLine .rs v s).d7 = s.d7 := rfl
@[simp] theorem setLine_en_rs (v : Bool) : (setLine .en v s).rs = s.rs := rfl
@[simp] theorem setLine_en_en (v : Bool) : (setLine .en v s).en = v := rfl
@[simp] theorem setLine_en_d4 (v : Bool) : (setLine .en v s).d4 = s.d4 := rfl
@[simp] theorem setLine_en_d5 (v : Bool) : (setLine .en v s).d5 = s.d5 := rfl
@[simp] theorem setLine_en_d6 (v : Bool) : (setLine .en v s).d6 = s.d6 := rfl
@[simp] theorem setLine_en_d7 (v : Bool) : (setLine .en v s).d7 = s.d7 := rfl
@[simp] theorem setLine_d4_rs (v : Bool) : (setLine .d4 v s).rs = s.rs := rfl
@[simp] theorem setLine_d4_en (v : Bool) : (setLine .d4 v s).en = s.en := rfl
@[simp] theorem setLine_d4_d4 (v : Bool) : (setLine .d4 v s).d4 = v := rfl
@[simp] theorem setLine_d4_d5 (v : Bool) : (setLine .d4 v s).d5 = s.d5 := rfl
@[simp] theorem setLine_d4_d6 (v : Bool) : (setLine .d4 v s).d6 = s.d6 := rfl
@[simp] theorem setLine_d4_d7 (v : Bool) : (setLine .d4 v s).d7 = s.d7 := rfl
@[simp] theorem setLine_d5_rs (v : Bool) : (setLine .d5 v s).rs = s.rs := rfl
@[simp] theorem setLine_d5_en (v : Bool) : (setLine .d5 v s).en = s.en := rfl
@[simp] theorem setLine_d5_d4 (v : Bool) : (setLine .d5 v s).d4 = s.d4 := rfl
@[simp] theorem setLine_d5_d5 (v : Bool) : (setLine .d5 v s).d5 = v := rfl
@[simp] theorem setLine_d5_d6 (v : Bool) : (setLine .d5 v s).d6 = s.d6 := rfl
@[simp] theorem setLine_d5_d7 (v : Bool) : (setLine .d5 v s).d7 = s.d7 := rfl
@[simp] theorem setLine_d6_rs (v : Bool) : (setLine .d6 v s).rs = s.rs := rfl
@[simp] theorem setLine_d6_en (v : Bool) : (setLine .d6 v s).en = s.en := rfl
@[simp] theorem setLine_d6_d4 (v : Bool) : (setLine .d6 v s).d4 = s.d4 := rfl
@[simp] theorem setLine_d6_d5 (v : Bool) : (setLine .d6 v s).d5 = s.d5 := rfl
@[simp] theorem setLine_d6_d6 (v : Bool) : (setLine .d6 v s).d6 = v := rfl
@[simp] theorem setLine_d6_d7 (v : Bool) : (setLine .d6 v s).d7 = s.d7 := rfl
@[simp] theorem setLine_d7_rs (v : Bool) : (setLine .d7 v s).rs = s.rs := rfl
@[simp] theorem setLine_d7_en (v : Bool) : (setLine .d7 v s).en = s.en := rfl
@[simp] theorem setLine_d7_d4 (v : Bool) : (setLine .d7 v s).d4 = s.d4 := rfl
@[simp] theorem setLine_d7_d5 (v : Bool) : (setLine .d7 v s).d5 = s.d5 := rfl
@[simp] theorem setLine_d7_d6 (v : Bool) : (setLine .d7 v s).d6 = s.d6 := rfl
@[simp] theorem setLine_d7_d7 (v : Bool) : (setLine .d7 v s).d7 = v := rfl
@[simp] theorem setLine_level (l : Line) (v : Bool) : (setLine l v s).level l = v := by cases l <;> rfl
theorem setLine_level_other (l m : Line) (v : Bool) (h : m ≠ l) : (setLine l v s).level m = s.level m := by
  cases l <;> cases m <;> first | rfl | exact absurd rfl h

@[simp] theorem endTick_params (t : State) : (endTick s t).params = t.params := rfl
@[simp] theorem endTick_rs (t : State) : (endTick s t).rs = t.rs := rfl
@[simp] theorem endTick_en (t : State) : (endTick s t).en = t.en := rfl
@[simp] theorem endTick_d4 (t : State) : (endTick s t).d4 = t.d4 := rfl
@[simp] theorem endTick_d5 (t : State) : (endTick s t).d5 = t.d5 := rfl
@[simp] theorem endTick_d6 (t : State) : (endTick s t).d6 = t.d6 := rfl
@[simp] theorem endTick_d7 (t : State) : (endTick s t).d7 = t.d7 := rfl
@[simp] theorem endTick_ph (t : State) : (endTick s t).ph = t.ph := rfl
@[simp] theorem endTick_opc (t : State) : (endTick s t).opc = t.opc := rfl
@[simp] theorem endTick_seq (t : State) : (endTick s t).seq = t.seq := rfl
@[simp] theorem endTick_nib (t : State) : (endTick s t).nib = t.nib := rfl
@[simp] theorem endTick_byte (t : State) : (endTick s t).byte = t.byte := rfl
@[simp] theorem endTick_rsq (t : State) : (endTick s t).rsq = t.rsq := rfl
@[simp] theorem endTick_argN (t : State) : (endTick s t).argN = t.argN := rfl
@[simp] theorem endTick_argF (t : State) : (endTick s t).argF = t.argF := rfl
@[simp] theorem endTick_dly (t : State) : (endTick s t).dly = t.dly := rfl
@[simp] theorem endTick_inited (t : State) : (endTick s t).inited = t.inited := rfl
@[simp] theorem endTick_cfgN (t : State) : (endTick s t).cfgN = t.cfgN := rfl
@[simp] theorem endTick_cfgF (t : State) : (endTick s t).cfgF = t.cfgF := rfl
@[simp] theorem endTick_lineErr (t : State) : (endTick s t).lineErr = t.lineErr := rfl
@[simp] theorem endTick_seqErr (t : State) : (endTick s t).seqErr = t.seqErr := rfl
@[simp] theorem endTick_illReq (t : State) : (endTick s t).illReq = t.illReq := rfl
@[simp] theorem endTick_disp (t : State) : (endTick s t).disp = t.disp := rfl
@[simp] theorem endTick_trace (t : State) : (endTick s t).trace = t.trace := rfl
@[simp] theorem endTick_draws (t : State) : (endTick s t).draws = t.draws := rfl
@[simp] theorem endTick_lat (t : State) : (endTick s t).lat = latched s t := rfl
@[simp] theorem endTick_now (t : State) : (endTick s t).now = t.now + 1 := rfl
@[simp] theorem endTick_host (t : State) : (endTick s t).host = hostNext (s.ph == .idle) t.host := rfl
@[simp] theorem endTick_env (t : State) : (endTick s t).env = t.env.tail := rfl

end

end Sys2Proof.Machine
end

