-- ==== Sys2Proof/Laws/Ops.lean ====
section
/-! SUPPORT. For each shared operation, one lemma that says everything it can do; provers cite these instead of unfolding. -/

namespace Sys2Proof.Machine

/-- Everything a line write does (R110): the line takes the value, or a draw with the failure reported. -/
theorem pinWrite_eq (l : Line) (v : Bool) (s : State) :
    pinWrite l v s =
      { setLine l (if s.writeFails l then Config.freeLevel s.draws else v) s with
        lineErr := s.lineErr || s.writeFails l
        trace := s.trace ++ (if s.writeFails l then [.log l] else [])
        draws := if s.writeFails l then s.draws + 1 else s.draws } := by
  unfold pinWrite drawLine raise
  cases h : s.writeFails l <;> cases l <;> simp [setLine, emit]

theorem pinWrite_of_succeeds (l : Line) (v : Bool) (s : State) (h : s.writeFails l = false) :
    pinWrite l v s = setLine l v s := by
  simp [pinWrite, h]

theorem writeFails_congr {s t : State} (l : Line) (hp : t.params = s.params) (he : t.env = s.env) :
    t.writeFails l = s.writeFails l := by
  simp [State.writeFails, State.wfailIn, hp, he]

@[simp] theorem emit_writeFails (e : Event) (s : State) (l : Line) : (emit e s).writeFails l = s.writeFails l := rfl

@[simp] theorem loadTransfer_writeFails (q : BitVec 3) (r : Bool) (b : Byte) (s : State) (l : Line) :
    (loadTransfer q r b s).writeFails l = s.writeFails l := rfl

/-- `setRegisterSelect` (R111). -/
theorem setRegisterSelect_eq (b : Bool) (s : State) :
    setRegisterSelect b s =
      { s with
        rs := if s.writeFails .rs then Config.freeLevel s.draws else b
        lineErr := s.lineErr || s.writeFails .rs
        trace := s.trace ++ [.rs b] ++ (if s.writeFails .rs then [.log .rs] else [])
        draws := if s.writeFails .rs then s.draws + 1 else s.draws } := by
  rw [setRegisterSelect, pinWrite_eq]
  rfl

/-- `setEnable` (R112). -/
theorem setEnable_eq (b : Bool) (s : State) :
    setEnable b s =
      { s with
        en := if s.writeFails .en then Config.freeLevel s.draws else b
        lineErr := s.lineErr || s.writeFails .en
        trace := s.trace ++ [.en b] ++ (if s.writeFails .en then [.log .en] else [])
        draws := if s.writeFails .en then s.draws + 1 else s.draws } := by
  rw [setEnable, pinWrite_eq]
  rfl

theorem writeFails_of_writesSucceed (s : State) (l : Line) (h : (!s.params.hasWfail || s.wfailIn == 0#6) = true) :
    s.writeFails l = false := by
  unfold State.writeFails
  rcases Bool.or_eq_true _ _ |>.mp h with h | h
  · simp_all
  · rw [beq_iff_eq.mp h]; simp

/-- `setDataNibble` where no write fails (R116, R61). -/
theorem setDataNibble_of_succeeds (n : Nibble) (s : State)
    (h : ∀ l, s.writeFails l = false) :
    setDataNibble n s =
      { s with
        d4 := n.getLsbD 0, d5 := n.getLsbD 1, d6 := n.getLsbD 2, d7 := n.getLsbD 3
        trace := s.trace ++ [.data n] } := by
  have hw : ∀ (t : State) (l : Line) (v : Bool), t.params = s.params → t.env = s.env → pinWrite l v t = setLine l v t :=
    fun t l v hp he => pinWrite_of_succeeds l v t ((writeFails_congr l hp he).trans (h l))
  have h4 := hw (emit (.data n) s) .d4 (n.getLsbD 0) rfl rfl
  have h5 := hw (setLine .d4 (n.getLsbD 0) (emit (.data n) s)) .d5 (n.getLsbD 1) rfl rfl
  have h6 := hw (setLine .d5 (n.getLsbD 1) (setLine .d4 (n.getLsbD 0) (emit (.data n) s))) .d6 (n.getLsbD 2) rfl rfl
  have h7 := hw (setLine .d6 (n.getLsbD 2) (setLine .d5 (n.getLsbD 1) (setLine .d4 (n.getLsbD 0) (emit (.data n) s)))) .d7
    (n.getLsbD 3) rfl rfl
  rw [setDataNibble, h4, h5, h6, h7]
  rfl

/-- A step of a wait phase (R35). -/
theorem waitStep_counting (leave : State → State) (s : State) (h : s.dly ≠ 0) :
    waitStep leave s = { s with dly := s.dly - 1 } := by
  simp [waitStep, h]

theorem waitStep_leaving (leave : State → State) (s : State) (h : s.dly = 0) : waitStep leave s = leave s := by
  simp [waitStep, h]

/-- The data nibble on the lines is the nibble that was written (R21, R61). -/
theorem dn_of_bits (n : Nibble) (s : State) (h4 : s.d4 = n.getLsbD 0) (h5 : s.d5 = n.getLsbD 1) (h6 : s.d6 = n.getLsbD 2)
    (h7 : s.d7 = n.getLsbD 3) : s.dn = n := by
  unfold State.dn
  rw [h4, h5, h6, h7]
  clear h4 h5 h6 h7
  revert n
  decide

end Sys2Proof.Machine
end

