-- ==== Sys2Proof/Laws/PerInstr.lean ====
section
/-! SUPPORT. Statements made per instruction. Family `EncodingRow`: the words an instruction encodes to, at the default parameters, lie in its
row of spec/opcode_table.json: the row's width, and the row's match under the row's mask. -/

namespace Sys2Proof.Laws

/-- Width and value of an encoded instruction. -/
def encodedValue : Encoded → Nat × Nat
  | .request w => (12, w.toNat)
  | .busByte b => (8, b.toNat)
  | .busNibble _ n => (4, n.toNat)

/-- Width, match and mask of the instruction's row in spec/opcode_table.json. -/
def tableRow : Instr → Nat × Nat × Nat
  | .init _ _ => (12, 0x100, 0xFF3)
  | .cmd _ => (12, 0x200, 0xF00)
  | .data _ => (12, 0x300, 0xF00)
  | .clear => (12, 0x400, 0xFFF)
  | .dispctl _ _ _ => (12, 0x500, 0xFF8)
  | .lcdClear => (8, 0x01, 0xFF)
  | .lcdDispctl _ _ _ => (8, 0x08, 0xF8)
  | .lcdFuncset _ _ => (8, 0x20, 0xF3)
  | .lcdHs0 => (4, 0x3, 0xF)
  | .lcdHs1 => (4, 0x3, 0xF)
  | .lcdHs2 => (4, 0x3, 0xF)
  | .lcdHs3 => (4, 0x2, 0xF)

namespace EncodingRow

def Statement (i : Instr) : Prop :=
  (encodedValue (encode Cfg.default i)).1 = (tableRow i).1 ∧
  (encodedValue (encode Cfg.default i)).2 &&& (tableRow i).2.2 = (tableRow i).2.1

theorem init (n f : Bool) : Statement (.init n f) := by
  unfold Statement; revert n f; decide

theorem cmd (b : Byte) : Statement (.cmd b) := by
  unfold Statement; revert b; decide +kernel

theorem data (b : Byte) : Statement (.data b) := by
  unfold Statement; revert b; decide +kernel

theorem clear : Statement .clear := by
  unfold Statement; decide

theorem dispctl (d c k : Bool) : Statement (.dispctl d c k) := by
  unfold Statement; revert d c k; decide

theorem lcdClear : Statement .lcdClear := by
  unfold Statement; decide

theorem lcdDispctl (d c k : Bool) : Statement (.lcdDispctl d c k) := by
  unfold Statement; revert d c k; decide

theorem lcdFuncset (n f : Bool) : Statement (.lcdFuncset n f) := by
  unfold Statement; revert n f; decide

theorem lcdHs0 : Statement .lcdHs0 := by
  unfold Statement; decide

theorem lcdHs1 : Statement .lcdHs1 := by
  unfold Statement; decide

theorem lcdHs2 : Statement .lcdHs2 := by
  unfold Statement; decide

theorem lcdHs3 : Statement .lcdHs3 := by
  unfold Statement; decide

end EncodingRow

end Sys2Proof.Laws
end

