-- ==== Sys2Proof/Laws/Step.lean ====
section
/-! SUPPORT. What `step` is in each situation: reset, a busy engine, an idle engine with its offer. Provers cite these and never unfold
`step`, `fetch` or `finish`. -/

namespace Sys2Proof.Machine

/-- Reset beats everything (R212). -/
theorem step_of_rst (s : State) (h : s.rstIn = true) : step s = .next (powerCycle s) := by
  simp [step, h]

/-- The end of a busy tick: the port was not read (R33). -/
theorem endTick_of_busy (s t : State) (h : s.ph ≠ .idle) :
    endTick s t =
      { t with lat := latched s t, now := t.now + 1, host := hostNext false t.host, env := t.env.tail } := by
  have hb : (s.ph == .idle) = false := beq_eq_false_iff_ne.mpr h
  rw [endTick, hb]

/-- The end of an idle tick: the port was read (R33). -/
theorem endTick_of_idle (s t : State) (h : s.ph = .idle) :
    endTick s t =
      { t with lat := latched s t, now := t.now + 1, host := hostNext true t.host, env := t.env.tail } := by
  have hb : (s.ph == .idle) = true := beq_iff_eq.mpr h
  rw [endTick, hb]

/-- Nothing is latched in a tick in which `EN` does not fall (R47). -/
theorem latched_of_steady (s t : State) (h : s.en = false ∨ t.en = s.en) : latched s t = t.lat := by
  unfold latched
  rcases h with h | h
  · simp [h]
  · cases hs : s.en <;> simp [h, hs]

/-- The end of a busy tick in which `EN` does not fall. -/
theorem endTick_of_steady (s t : State) (hb : s.ph ≠ .idle) (he : s.en = false ∨ t.en = s.en) :
    endTick s t = { t with now := t.now + 1, host := hostNext false t.host, env := t.env.tail } := by
  rw [endTick_of_busy s t hb, latched_of_steady s t he]

/-- A busy engine begins no session call. -/
theorem sessionCalls_of_busy (s : State) (h : s.ph ≠ .idle) : sessionCalls s = s := by
  simp [sessionCalls, h]

/-- A busy engine reads no request (R33). -/
theorem requestAt_of_busy (s : State) (h : s.ph ≠ .idle) : requestAt s = none := by
  simp [requestAt, h]

theorem loadTransfer_self (s : State) (q : BitVec 3) (b : Byte) (hq : s.seq = q) (hn : s.nib = false) (hr : s.rsq = false)
    (hb : s.byte = b) : loadTransfer q false b s = s := by
  subst hq hb
  cases s
  simp_all [loadTransfer]

theorem high_low_byte (b : Byte) (n : Nibble) (hl : lo b = 0x0#4) (hh : hi b = n) : b = n ++ 0x0#4 := by
  subst hh
  revert b
  decide

/-- A displayed byte is rebuilt from its own flag bits (R89). -/
theorem displayControlByte_of_match (c : Cfg) (b : Byte) (h : b &&& 0xF8#8 = c.dispctlBase) :
    displayControlByte c (b.getLsbD 2) (b.getLsbD 1) (b.getLsbD 0) = b := by
  unfold displayControlByte
  rw [← h]
  clear h
  revert b
  decide +kernel

/-- A function-set byte is rebuilt from its own argument bits (R90). -/
theorem functionSetByte_of_match (c : Cfg) (b : Byte) (h : b &&& 0xF3#8 = c.funcsetBase) :
    functionSetByte c (b.getLsbD 3) (b.getLsbD 2) = b := by
  unfold functionSetByte
  rw [← h]
  clear h
  revert b
  decide +kernel

theorem accepted_some {r : Except Illegal Instr} {i : Instr} (h : accepted r = some i) : r = .ok i := by
  cases r with
  | error e => cases h
  | ok j => cases h; rfl

/-- Starting the transfer the serializer already holds is the phase `RSW` of its first pulse (R113). -/
theorem startTransfer_self (s : State) (q : BitVec 3) (b : Byte) (hq : s.seq = q) (hn : s.nib = false) (hr : s.rsq = false)
    (hb : s.byte = b) : startTransfer q b s = rswTick s := by
  rw [startTransfer, loadTransfer_self s q b hq hn hr hb]

theorem exec_of_busByte (s : State) (i : Instr) (hn : s.nib = false) (hr : s.rsq = false) (hq : s.seq = 4#3)
    (h : decodeBusByte s.params s.byte = .ok i) : exec i s = .next (rswTick s) := by
  unfold decodeBusByte at h
  split at h
  · cases h
    exact congrArg _ (startTransfer_self s _ _ hq hn hr ‹_›)
  · split at h
    · cases h
      exact congrArg _ (startTransfer_self s _ _ hq hn hr (displayControlByte_of_match _ _ ‹_›).symm)
    · split at h
      · cases h
        exact congrArg _ (startTransfer_self s _ _ hq hn hr (functionSetByte_of_match _ _ ‹_›).symm)
      · cases h

theorem exec_handshakeRow (s : State) (j : Fin 4) :
    exec (handshakeRow j) s = .next (startTransfer (BitVec.ofNat 3 j.val) (handshakeByte s.params j) s) := by
  match j with
  | 0 => rfl
  | 1 => rfl
  | 2 => rfl
  | 3 => rfl

theorem position_val (q : BitVec 3) (h : q < 4#3) : BitVec.ofNat 3 (position q).val = q := by
  revert q
  decide

/-- The bus row that a tick fetches is its phase's own step (R113; log 9). -/
theorem exec_of_transferAt (s : State) (i : Instr) (h : transferAt s = some i) : exec i s = .next (rswTick s) := by
  unfold transferAt at h
  split at h
  · next hc =>
    obtain ⟨-, hn, hr⟩ := hc
    split at h
    · next hq =>
      split at h
      · next hl =>
        have hd := accepted_some h
        unfold decodeBusNibble at hd
        split at hd
        · next hh =>
          cases hd
          rw [exec_handshakeRow, position_val _ hq]
          exact congrArg _ (startTransfer_self s _ _ rfl hn hr (high_low_byte _ _ hl hh))
        · cases hd
      · cases h
    · split at h
      · exact exec_of_busByte s i hn hr ‹_› (accepted_some h)
      · cases h
  · cases h

theorem ph_of_transferAt (s : State) (i : Instr) (h : transferAt s = some i) : s.ph = .rsw := by
  unfold transferAt at h
  split at h
  · next hc => exact hc.1
  · cases h

/-- A busy tick is the engine's own step for its phase, whatever the host does (R30, R33, R49). -/
theorem step_of_busy (s : State) (hr : s.rstIn = false) (hb : s.ph ≠ .idle) :
    step s = .next (endTick s (engineTick s)) := by
  unfold step fetch
  rw [sessionCalls_of_busy s hb, requestAt_of_busy s hb]
  simp only [hr, Bool.false_eq_true, if_false]
  cases ht : transferAt s with
  | none => rfl
  | some i => simp [exec_of_transferAt s i ht, finish, engineTick, ph_of_transferAt s i ht]

/-- A busy tick whose own step is `t` and in which `EN` does not fall: `t` and the inputs moved on. -/
theorem step_of_steady (s t : State) (hr : s.rstIn = false) (hb : s.ph ≠ .idle) (ht : engineTick s = t)
    (he : s.en = false ∨ t.en = s.en) :
    step s = .next { t with now := t.now + 1, host := hostNext false t.host, env := t.env.tail } := by
  rw [step_of_busy s hr hb, ht, endTick_of_steady s t hb he]

theorem transferAt_of_idle (s : State) (h : s.ph = .idle) : transferAt s = none := by
  simp [transferAt, h]

theorem sessionCalls_ph (s : State) : (sessionCalls s).ph = s.ph := by
  unfold sessionCalls; split <;> rfl

/-- Everything `sessionCalls` leaves alone: all but the host's list and `DISP`. -/
theorem sessionCalls_eq (s : State) :
    ∃ h x, sessionCalls s = { s with host := h, disp := x } := by
  unfold sessionCalls
  split
  · exact ⟨_, _, rfl⟩
  · exact ⟨s.host, s.disp, rfl⟩

/-- An idle tick runs the legal request on the port, if there is one (R32, R75). -/
theorem step_of_request (s : State) (i : Instr) (hr : s.rstIn = false) (h : requestAt (sessionCalls s) = some i) :
    step s = finish (sessionCalls s) (exec i (sessionCalls s)) := by
  simp [step, hr, fetch, h]

/-- An idle tick without a legal request on the port is phase `IDLE`'s own step (R32). -/
theorem step_of_no_request (s : State) (hr : s.rstIn = false) (hi : s.ph = .idle) (h : requestAt (sessionCalls s) = none) :
    step s = .next (endTick (sessionCalls s) (idleTick (sessionCalls s))) := by
  have hp : (sessionCalls s).ph = .idle := (sessionCalls_ph s).trans hi
  simp [step, hr, fetch, h, transferAt_of_idle _ hp, engineTick, hp]

/-- A word at the head of the host's list, held or shown for one tick, is on the port as it stands. -/
theorem sessionCalls_of_word (s : State) (w : ReqWord) (t : List HostAct) (h : s.host = .offer w :: t ∨ s.host = .glance w :: t) :
    sessionCalls s = s := by
  unfold sessionCalls
  split
  · rcases h with h | h <;> rw [h] <;> cases s <;> simp_all [beginCalls]
  · rfl

/-- An offer at the head of the host's list is on the port as it stands. -/
theorem sessionCalls_of_offer (s : State) (w : ReqWord) (t : List HostAct) (h : s.host = .offer w :: t) :
    sessionCalls s = s :=
  sessionCalls_of_word s w t (.inl h)

/-- The only call with nothing to offer is the empty text (R183). -/
theorem requests_nil {op : SessionOp} (h : op.requests = []) : op = .write [] := by
  cases op with
  | display d c k => cases h
  | write text => rw [List.map_eq_nil_iff.mp h]
  | clear => cases h

/-- What the calls that begin in a tick do to `DISP`: nothing, or the triple of a display call before which only empty texts stand. -/
theorem beginCalls_disp (acts : List HostAct) (x : Disp) :
    (beginCalls acts x).2 = x ∨ ∃ d c k before after,
      acts = before ++ .call (.display d c k) :: after ∧ (∀ a ∈ before, a = .call (.write [])) ∧ (beginCalls acts x).2 = ⟨d, c, k⟩ := by
  induction acts generalizing x with
  | nil => exact .inl rfl
  | cons a t ih =>
    cases a with
    | quiet => exact .inl rfl
    | offer w => exact .inl rfl
    | glance w => exact .inl rfl
    | call op =>
      cases op with
      | display d c k => exact .inr ⟨d, c, k, [], t, rfl, by simp, rfl⟩
      | clear => exact .inl rfl
      | write text =>
        cases text with
        | cons b bs => exact .inl rfl
        | nil =>
          rcases ih x with h | ⟨d, c, k, before, after, ht, hb, hd⟩
          · exact .inl h
          · exact .inr ⟨d, c, k, .call (.write []) :: before, after, by simp [ht], by simpa using hb, hd⟩

end Sys2Proof.Machine
end

