-- ==== Sys2Proof/Laws/Run.lean ====
section
/-! SUPPORT. Runs of ticks: gluing them together, and the counting part of a wait phase. -/

namespace Sys2Proof.Machine

@[simp] theorem runTicks_zero (s : State) : runTicks 0 s = .next s := rfl

theorem runTicks_succ (k : Nat) (s t : State) (h : step s = .next t) : runTicks (k + 1) s = runTicks k t := by
  simp [runTicks, h]

theorem runTicks_one (s t : State) (h : step s = .next t) : runTicks 1 s = .next t := by
  rw [runTicks_succ 0 s t h, runTicks_zero]

/-- Runs glue together. -/
theorem runTicks_add (m n : Nat) (s t : State) (h : runTicks m s = .next t) : runTicks (m + n) s = runTicks n t := by
  induction m generalizing s with
  | zero => cases h; rw [Nat.zero_add]
  | succ k ih =>
    unfold runTicks at h
    split at h
    · next u hu =>
      rw [Nat.add_right_comm, runTicks_succ _ s u hu]
      exact ih u h
    · cases h
    · cases h

/-- The four wait phases (R35). -/
def Phase.waits (p : Phase) : Bool := p == .pre || p == .pw || p == .gap || p == .long

/-- One counting step of a wait phase (R35): only `DLY` moves, and the inputs. -/
theorem step_of_counting (s : State) (hr : s.rstIn = false) (hw : s.ph.waits = true) (hd : s.dly ≠ 0) :
    step s = .next { s with dly := s.dly - 1, now := s.now + 1, host := hostNext false s.host, env := s.env.tail } := by
  obtain ⟨hb, he⟩ : s.ph ≠ .idle ∧ engineTick s = { s with dly := s.dly - 1 } := by
    cases hp : s.ph <;> simp [Phase.waits, hp] at hw <;>
      exact ⟨by simp, by simp [engineTick, hp, preTick, pwTick, gapTick, longTick, waitStep_counting _ s hd]⟩
  exact step_of_steady s _ hr hb he (Or.inr rfl)

end Sys2Proof.Machine
end

