-- ==== Sys2Proof/Tests/Slice0.lean ====
section
/-! SUPPORT. Tests. Expected values come from the worked examples and tables of spec/95_test_vectors.md (the id of the vector is in the
docstring) or from the rule named there. The `witness_` theorems show concrete states that meet the hypotheses of the obligations. -/

namespace Sys2Proof.Tests

open Sys2Proof Sys2Proof.Machine

/-! ### Helpers -/

/-- The next state, if there is one. -/
def nextOf : Host.Outcome State Fault Refusal → Option State
  | .next t => some t
  | .fault _ => none
  | .refused _ => none

/-- A question about the next state; `false` if there is none. -/
def ask (o : Host.Outcome State Fault Refusal) (q : State → Bool) : Bool :=
  match nextOf o with
  | some t => q t
  | none => false

/-- Parameter set `TESTCFG` of 95_test_vectors.md. -/
def testCfg : Cfg :=
  { Cfg.default with tPowerOn := 5, tInit0 := 4, tInit1 := 2, tInit2 := 2, tInit3 := 2, tPw := 1, tSettle := 2, tLong := 7 }

/-- `TESTCFG` with `HAS_WFAIL`. -/
def failCfg : Cfg := { testCfg with hasWfail := true }

/-- Reset under `TESTCFG`. -/
def cold : State := { State.reset with params := testCfg }

/-- The state left by `INIT 1, 0` (V16: `RS = 0, DN = 0x8, BYTE = 0x28, NIB = 1`), with `h` on the port. -/
def ready (h : List HostAct) : State :=
  { cold with
    inited := true, cfgN := true, argN := true, opc := .init, seq := 4#3, nib := true, byte := 0x28#8, d7 := true, host := h }

/-- `DATA 0x48` under way (V16): phase `p`, half `nib`, `DLY`. -/
def sending (p : Phase) (nib : Bool) (dly : Nat) : State :=
  { ready [] with ph := p, opc := .data, nib := nib, rsq := true, byte := 0x48#8, rs := true, dly := dly }

/-- An initialization under way: phase `p`, pulse `q`. -/
def starting (p : Phase) (q : BitVec 3) (dly : Nat) : State :=
  { cold with ph := p, opc := .init, seq := q, argN := true, byte := 0x30#8, dly := dly }

/-- One tick with `wfail`. -/
def failing (w : BitVec 6) (s : State) : State := { s with params := failCfg, env := [⟨false, w⟩] }

/-! ### Well-formedness: an ill-formed term for each check -/

/-- R11: `max(T_*) < 2^DLY_W`; 40000 needs 16 bits. -/
theorem test_wf_refuses_narrow_counter : Cfg.wf { Cfg.default with dlyW := 15 } = false := by decide
theorem test_wf_delaysFit : Cfg.delaysFit { Cfg.default with tLong := 65536 } = false := by decide
/-- R11: `DISPCTL_BASE` with bit 2 set. -/
theorem test_wf_dispctlBaseClear : Cfg.wf { Cfg.default with dispctlBase := 0x0C#8 } = false := by decide
/-- R11: `FUNCSET_BASE` with bit 3 set. -/
theorem test_wf_funcsetBaseClear : Cfg.wf { Cfg.default with funcsetBase := 0x28#8 } = false := by decide
theorem test_wf_default : Cfg.default.wf = true ∧ testCfg.wf = true ∧ Cfg.default.bytesDistinct = true := by decide

/-! ### Decoding: words written out from the encodings of 30_encoding.md -/

/-- V1 to V4: `0001 0000 n f 00`. -/
theorem test_decode_init :
    decodeRequest 0b000100000000#12 = .ok (.init false false) ∧ decodeRequest 0b000100000100#12 = .ok (.init false true) ∧
    decodeRequest 0b000100001000#12 = .ok (.init true false) ∧ decodeRequest 0b000100001100#12 = .ok (.init true true) := by decide
/-- V5: reserved bits of `INIT`. -/
theorem test_decode_init_reserved :
    decodeRequest 0x101#12 = .error .initReservedBits ∧ decodeRequest 0x102#12 = .error .initReservedBits ∧
    decodeRequest 0x110#12 = .error .initReservedBits ∧ decodeRequest 0x180#12 = .error .initReservedBits := by decide
/-- V6. -/
theorem test_decode_cmd :
    decodeRequest 0b001000000000#12 = .ok (.cmd 0x00#8) ∧ decodeRequest 0b001011111111#12 = .ok (.cmd 0xFF#8) ∧
    decodeRequest 0b001010000000#12 = .ok (.cmd 0x80#8) := by decide
/-- V7. -/
theorem test_decode_data :
    decodeRequest 0b001100000000#12 = .ok (.data 0x00#8) ∧ decodeRequest 0b001111111111#12 = .ok (.data 0xFF#8) ∧
    decodeRequest 0b001101001000#12 = .ok (.data 0x48#8) := by decide
/-- V8. -/
theorem test_decode_clear :
    decodeRequest 0b010000000000#12 = .ok .clear ∧ decodeRequest 0x401#12 = .error .clearReservedBits ∧
    decodeRequest 0x4FF#12 = .error .clearReservedBits := by decide
/-- V9, and one flag alone for each of `c` and `k`: `0101 00000 d c k`. -/
theorem test_decode_dispctl :
    decodeRequest 0b010100000000#12 = .ok (.dispctl false false false) ∧
    decodeRequest 0b010100000100#12 = .ok (.dispctl true false false) ∧
    decodeRequest 0b010100000010#12 = .ok (.dispctl false true false) ∧
    decodeRequest 0b010100000001#12 = .ok (.dispctl false false true) ∧
    decodeRequest 0x508#12 = .error .dispctlReservedBits ∧ decodeRequest 0x580#12 = .error .dispctlReservedBits := by decide
/-- V9a. -/
theorem test_decode_reserved_op :
    decodeRequest 0x000#12 = .error (.reservedOp 0x0#4) ∧ decodeRequest 0x600#12 = .error (.reservedOp 0x6#4) ∧
    decodeRequest 0x7AB#12 = .error (.reservedOp 0x7#4) ∧ decodeRequest 0xFFF#12 = .error (.reservedOp 0xF#4) := by decide
/-- R88: `0000 0001`. -/
theorem test_decode_lcdClear : decodeTableWord 8 0b00000001 = some .lcdClear := by decide
/-- R89: `0000 1 d c k`. -/
theorem test_decode_lcdDispctl :
    decodeTableWord 8 0b00001100 = some (.lcdDispctl true false false) ∧
    decodeTableWord 8 0b00001010 = some (.lcdDispctl false true false) ∧
    decodeTableWord 8 0b00001001 = some (.lcdDispctl false false true) := by decide
/-- R90: `0010 n f 00`. -/
theorem test_decode_lcdFuncset :
    decodeTableWord 8 0b00101000 = some (.lcdFuncset true false) ∧ decodeTableWord 8 0b00100100 = some (.lcdFuncset false true) ∧
    decodeTableWord 8 0b00100001 = none := by decide
/-- R91, R97: the handshake nibbles, `0011` at positions 0, 1, 2 and `0010` at 3; a bare `0011` is read as the first. -/
theorem test_decode_handshake :
    decodeBusNibble Cfg.default 0 0b0011#4 = .ok .lcdHs0 ∧ decodeBusNibble Cfg.default 1 0b0011#4 = .ok .lcdHs1 ∧
    decodeBusNibble Cfg.default 2 0b0011#4 = .ok .lcdHs2 ∧ decodeBusNibble Cfg.default 3 0b0010#4 = .ok .lcdHs3 ∧
    decodeBusNibble Cfg.default 3 0b0011#4 = .error (.unlistedNibble 3 0b0011#4) ∧
    decodeTableWord 4 0b0011 = some .lcdHs0 ∧ decodeTableWord 4 0b0010 = some .lcdHs3 := by decide
/-- A request word is 12 bits in two whole bytes. -/
theorem test_decodeTableWord_request :
    decodeTableWord 12 0x348 = some (.data 0x48#8) ∧ decodeTableWord 16 0x504 = some (.dispctl true false false) ∧
    decodeTableWord 16 0x1348 = none := by decide
/-- R85: `encode` of one term of each kind. -/
theorem test_encode :
    encodeRequest (.init true false) = 0x108#12 ∧ encodeRequest (.cmd 0x80#8) = 0x280#12 ∧ encodeRequest (.data 0x48#8) = 0x348#12 ∧
    encodeRequest .clear = 0x400#12 ∧ encodeRequest (.dispctl true true true) = 0x507#12 := by decide

/-! ### Instructions, one step each -/

/-- R130's example: `INIT 1, 0` (0x108) from reset gives `PH = PRE`, `BYTE = 0x30`, `DLY = T_POWERON`. -/
theorem test_init :
    ask (step { State.reset with host := [.offer 0x108#12] }) (fun t =>
      t.ph == .pre && t.byte == 0x30#8 && t.dly == 40000 && t.argN && !t.argF && !t.inited && t.trace == [.wait .powerOn]) = true := by decide
/-- R130: accepted again when initialized; `CFG` stays until the end. -/
theorem test_init_again :
    ask (step (ready [.offer 0x104#12])) (fun t => t.ph == .pre && !t.inited && t.cfgN && !t.argN && t.argF && t.seq == 0#3) = true := by
  decide
/-- R150: `CMD 0x80` (V30). -/
theorem test_cmd :
    ask (step (ready [.offer 0x280#12])) (fun t =>
      t.ph == .rsw && t.opc == .cmd && !t.rsq && !t.nib && t.seq == 4#3 && t.byte == 0x80#8 && t.host == []) = true := by decide
/-- R207: before `INIT`, dropped. -/
theorem test_cmd_before_init :
    ask (step { cold with host := [.offer 0x280#12] }) (fun t =>
      t == { cold with seqErr := true, now := 1 } && t.status == 0b01000#5) = true := by decide
/-- V16, tick 0. -/
theorem test_data :
    ask (step (ready [.offer 0x348#12])) (fun t =>
      t.ph == .rsw && !t.rs && !t.en && t.dn == 0x8#4 && t.dly == 0 && !t.nib && t.byte == 0x48#8 && t.rsq && t.opc == .data) = true := by
  decide
/-- R33: a request offered while busy is not read; the tick is the phase's own (V16, tick 1). -/
theorem test_data_while_busy :
    ask (step { sending .rsw false 0 with host := [.offer 0x3FF#12] }) (fun t =>
      t.ph == .dw && t.rs && t.byte == 0x48#8 && t.host == [.offer 0x3FF#12]) = true := by decide
/-- R165. -/
theorem test_clear :
    ask (step (ready [.offer 0x400#12])) (fun t => t.ph == .rsw && t.opc == .clear && !t.rsq && t.byte == 0x01#8) = true := by decide
/-- R170: `DISPCTL 0, 1, 0` builds 0x0A. -/
theorem test_dispctl :
    ask (step (ready [.offer 0x502#12])) (fun t => t.ph == .rsw && t.opc == .dispctl && t.byte == 0x0A#8) = true := by decide
/-- R88, R113. -/
theorem test_lcdClear :
    ask (exec .lcdClear (sending .rsw true 0)) (fun t => t.byte == 0x01#8 && t.ph == .dw && !t.rs && !t.nib && t.trace == [.rs false]) = true := by
  decide
/-- R89: `0b1101` with all but the cursor flag. -/
theorem test_lcdDispctl :
    ask (exec (.lcdDispctl true false true) (sending .rsw true 0)) (fun t => t.byte == 0x0D#8 && t.ph == .dw && !t.rs) = true := by decide
/-- R90. -/
theorem test_lcdFuncset :
    ask (exec (.lcdFuncset true false) (starting .rsw 4#3 0)) (fun t => t.byte == 0x28#8 && t.ph == .dw && t.seq == 4#3) = true := by decide
/-- R91, R132. -/
theorem test_lcdHs0 : ask (exec .lcdHs0 cold) (fun t => t.byte == 0x30#8 && t.seq == 0#3 && t.ph == .dw) = true := by decide
theorem test_lcdHs1 : ask (exec .lcdHs1 cold) (fun t => t.byte == 0x30#8 && t.seq == 1#3 && t.ph == .dw) = true := by decide
theorem test_lcdHs2 : ask (exec .lcdHs2 cold) (fun t => t.byte == 0x30#8 && t.seq == 2#3 && t.ph == .dw) = true := by decide
theorem test_lcdHs3 : ask (exec .lcdHs3 cold) (fun t => t.byte == 0x20#8 && t.seq == 3#3 && t.ph == .dw) = true := by decide

/-! ### The engine, tick by tick (V16), and the other rules -/

/-- V16, ticks 1, 2, 3. -/
theorem test_pulse_rises :
    ask (step { sending .rsw false 0 with rs := false }) (fun t => t.ph == .dw && t.rs && t.trace == [.rs true]) = true ∧
    ask (step (sending .dw false 0)) (fun t => t.ph == .enh && t.dn == 0x4#4 && t.trace == [.data 0x4#4]) = true ∧
    ask (step (sending .enh false 0)) (fun t => t.ph == .pw && t.en && t.dly == 1 && t.trace == [.en true, .wait .pw]) = true := by decide
/-- V16, tick 11: the low nibble. -/
theorem test_low_nibble : ask (step (sending .dw true 0)) (fun t => t.dn == 0x8#4) = true := by decide
/-- V16, ticks 4, 5, 6. -/
theorem test_pulse_falls :
    ask (step { sending .pw false 1 with en := true }) (fun t => t.ph == .pw && t.dly == 0) = true ∧
    ask (step { sending .pw false 0 with en := true }) (fun t => t.ph == .enl && t.en) = true ∧
    ask (step { sending .enl false 0 with en := true }) (fun t =>
      t.ph == .gap && !t.en && t.dly == 2 && t.lat == [(true, 0x8#4)] && t.trace == [.en false, .wait .settle]) = true := by decide
/-- V16, ticks 9 and 18. -/
theorem test_gap_exit :
    ask (step (sending .gap false 0)) (fun t => t.ph == .rsw && t.nib && t.byte == 0x48#8) = true ∧
    ask (step (sending .gap true 0)) (fun t => t.ph == .idle && t.inited) = true := by decide
/-- R118, R120: the handshake's own gaps, and its last nibble and the function-set byte after it. -/
theorem test_handshake :
    ask (step { starting .enl 1#3 0 with en := true }) (fun t => t.dly == 2 && t.trace == [.en false, .wait (.init 1)]) = true ∧
    ask (step (starting .gap 2#3 0)) (fun t => t.seq == 3#3 && t.byte == 0x20#8 && t.ph == .rsw) = true ∧
    ask (step (starting .gap 3#3 0)) (fun t => t.seq == 4#3 && t.byte == 0x28#8 && !t.nib) = true := by decide
/-- R120: the end of `INIT`. -/
theorem test_init_ends :
    ask (step { starting .gap 4#3 0 with nib := true }) (fun t => t.ph == .idle && t.inited && t.cfgN && !t.cfgF && t.cfgOut == 0b10#2) = true := by
  decide
/-- R120, R166: `CLEAR` waits `T_LONG`, and `DLY = 0` leaves. -/
theorem test_long :
    ask (step { sending .gap true 0 with opc := .clear }) (fun t => t.ph == .long && t.dly == 7 && t.trace == [.wait .long]) = true ∧
    ask (step { sending .long true 0 with opc := .clear }) (fun t => t.ph == .idle) = true := by decide
/-- V10 to V10c: bit `i` on line `D(4+i)`. -/
theorem test_setDataNibble :
    (setDataNibble 0x1#4 cold).d4 = true ∧ (setDataNibble 0x1#4 cold).d7 = false ∧ (setDataNibble 0x8#4 cold).d7 = true ∧
    (setDataNibble 0x6#4 cold).dn = 0x6#4 ∧ (setDataNibble 0x0#4 (ready [])).dn = 0x0#4 := by decide
/-- V15, but for the level: `LINEERR`, the log, and the phase goes on. -/
theorem test_failed_write :
    ask (step (failing 0b000010#6 (sending .enh false 0))) (fun t =>
      t.lineErr && t.ph == .pw && t.draws == 1 && t.trace == [.en true, .log .en, .wait .pw]) = true := by decide
/-- R208. -/
theorem test_illegal :
    ask (step { ready [.offer 0x401#12] with now := 6 }) (fun t => t == { ready [] with illReq := true, now := 7 }) = true := by decide
/-- R230: reset in the middle of a pulse. -/
theorem test_reset_tick :
    ask (step { sending .pw false 1 with en := true, env := [⟨true, 0#6⟩] }) (fun t => t == cold) = true := by decide
/-- R182's example: `S.DISPLAY 1, 1, 1`. -/
theorem test_session_display :
    ask (step (ready [.call (.display true true true)])) (fun t => t.disp.code == 0b111#3 && t.byte == 0x0F#8 && t.opc == .dispctl) = true := by
  decide
/-- R188: `display:hi` after `clr` (T7): data only, in order. -/
theorem test_session_write :
    ask (step (ready (serialHost [.display [0x68#8, 0x69#8]]))) (fun t => t.byte == 0x68#8 && t.rsq && t.host == [.offer 0x369#12]) = true := by
  decide
/-- R48. -/
theorem test_pair :
    pairNibbles [(true, 0x4#4), (true, 0x8#4), (false, 0x0#4), (false, 0x1#4)] = some [(true, 0x48#8), (false, 0x01#8)] ∧
    pairNibbles [(true, 0x4#4)] = none := by decide

/-! ### Witnesses: the hypotheses of the obligations can be met -/

theorem witness_RequestEncodingIsABijection :
    (Instr.dispctl true true true).isRequest = true ∧ (Instr.init false true).isRequest = true ∧
    decodeRequest 0x3FF#12 = .ok (.data 0xFF#8) := by decide

theorem witness_DecodeEncodeEveryRow :
    (Instr.lcdHs3).wf = true ∧ Cfg.default.wf = true ∧ Cfg.default.bytesDistinct = true := by decide

theorem witness_LegalWordsAreTheTablePatterns :
    0x10C#12 &&& 0xFF3#12 = 0x100#12 ∧ 0x2FF#12 &&& 0xF00#12 = 0x200#12 ∧ 0x300#12 &&& 0xF00#12 = 0x300#12 ∧
    0x507#12 &&& 0xFF8#12 = 0x500#12 ∧
    (0x508#12 &&& 0xFF3#12 ≠ 0x100#12 ∧ 0x508#12 &&& 0xF00#12 ≠ 0x200#12 ∧ 0x508#12 &&& 0xF00#12 ≠ 0x300#12 ∧ 0x508#12 ≠ 0x400#12 ∧
      0x508#12 &&& 0xFF8#12 ≠ 0x500#12) := by decide

theorem witness_StepRunsTheOfferedRequest :
    ((ready [.offer 0x348#12]).rstIn = false ∧ (ready [.offer 0x348#12]).ph = .idle ∧
      decodeRequest 0x348#12 = .ok (.data 0x48#8)) ∧
    ((ready [.glance 0x10C#12]).rstIn = false ∧ (ready [.glance 0x10C#12]).host = .glance 0x10C#12 :: [] ∧
      decodeRequest 0x10C#12 = .ok (.init true true)) := by decide

theorem witness_StepRunsTheBusTransfer :
    ((starting .rsw 0#3 0).rstIn = false ∧ transferAt (starting .rsw 0#3 0) = some .lcdHs0) ∧
    transferAt { starting .rsw 3#3 0 with byte := 0x20#8 } = some .lcdHs3 ∧
    transferAt { ready [] with ph := .rsw, nib := false } = some (.lcdFuncset true false) := by decide

theorem witness_StepRunsThePlacedWord :
    State.reset.params = Cfg.default ∧ decodeTableWord 12 0x348 = some (.data 0x48#8) ∧ decodeTableWord 8 0x01 = some .lcdClear ∧
    decodeTableWord 4 0x2 = some .lcdHs3 := by decide

theorem witness_InitIsAccepted : State.reset.ph = .idle ∧ (ready []).ph = .idle := by decide

theorem witness_CmdAndDataAreAccepted : (ready []).ph = .idle ∧ (ready []).inited = true := by decide

theorem witness_ClearAndDispctlAreAccepted : (ready []).ph = .idle ∧ (ready []).inited = true := by decide

theorem witness_RequestBeforeInitIsDropped :
    let s := { cold with host := [.offer 0x400#12] }
    let u := { cold with host := [.glance 0x400#12] }
    (s.rstIn = false ∧ s.ph = .idle ∧ s.inited = false ∧ s.host = .offer 0x400#12 :: []) ∧
    (u.rstIn = false ∧ u.ph = .idle ∧ u.inited = false ∧ u.host = .glance 0x400#12 :: []) ∧
    decodeRequest 0x400#12 = .ok .clear ∧ (∀ n f, Instr.clear ≠ .init n f) := by decide

theorem witness_IllegalWordIsDropped :
    let s := ready [.offer 0xFFF#12, .quiet]
    let u := { cold with host := [.glance 0xFFF#12] }
    (s.rstIn = false ∧ s.ph = .idle ∧ s.host = .offer 0xFFF#12 :: [.quiet]) ∧
    (u.rstIn = false ∧ u.ph = .idle ∧ u.host = .glance 0xFFF#12 :: []) ∧
    decodeRequest 0xFFF#12 = .error (.reservedOp 0xF#4) := by decide

theorem witness_IdleTickWithoutRequest :
    ((ready []).rstIn = false ∧ (ready []).ph = .idle ∧ (ready []).host = []) ∧
    (ready [.quiet, .offer 0x400#12]).host = .quiet :: [.offer 0x400#12] := by decide

theorem witness_BusyEngineIgnoresThePort :
    (Instr.cmd 0x00#8).isRequest = true ∧ (sending .gap true 0).ph ≠ .idle ∧ (sending .gap true 0).rstIn = false ∧
    (nextOf (step (sending .gap true 0))).isSome = true := by decide

theorem witness_HandshakePulsesStart :
    ((Instr.lcdHs0 = .lcdHs0 ∧ 0#3 = 0#3 ∧ 0x3#4 = State.reset.params.initNib0) ∧ 0x3#4 = State.reset.params.initNib1) ∧
    0x3#4 = State.reset.params.initNib2 ∧ (Instr.lcdHs3 = .lcdHs3 ∧ 3#3 = 3#3 ∧ 0x2#4 = State.reset.params.initNib3) := by decide

theorem witness_PinWriteWritesOrDraws :
    (ready []).writeFails .d7 = false ∧ (failing 0b100000#6 (ready [])).writeFails .d7 = true ∧
    (failing 0b100000#6 (ready [])).writeFails .d6 = false ∧ (failing 0b000001#6 (ready [])).writeFails .rs = true := by decide

theorem witness_RegisterSelectPhase : (sending .rsw true 0).rstIn = false ∧ (sending .rsw true 0).ph = .rsw := by decide

theorem witness_DataPhaseMapsBitsToLines :
    ((sending .dw true 0).rstIn = false ∧ (sending .dw true 0).ph = .dw ∧ (sending .dw true 0).writesSucceed = true) ∧
    (failing 0#6 (sending .dw false 0)).writesSucceed = true := by decide

theorem witness_DataPhaseLogsFailuresInOrder :
    let s := failing 0b101000#6 (sending .dw false 0)
    s.rstIn = false ∧ s.ph = .dw ∧ s.writeFails .d4 = false ∧ s.writeFails .d5 = true ∧ s.writeFails .d6 = false ∧
    s.writeFails .d7 = true := by decide

theorem witness_EnableHighPhase : (sending .enh false 0).rstIn = false ∧ (sending .enh false 0).ph = .enh := by decide

theorem witness_EnableLowPhaseLatches :
    ((starting .enl 0#3 0).rstIn = false ∧ (starting .enl 0#3 0).ph = .enl ∧ (starting .enl 0#3 0).seq = BitVec.ofNat 3 (0 : Fin 4).val ∧
      4 = (starting .enl 0#3 0).params.tInit 0) ∧
    (starting .enl 3#3 0).seq = BitVec.ofNat 3 (3 : Fin 4).val ∧
    (4#3 ≤ (sending .enl false 0).seq ∧ 2 = (sending .enl false 0).params.tSettle) := by decide

theorem witness_WaitPhasesCountAndLeave :
    ((starting .pre 0#3 5).rstIn = false ∧ (starting .pre 0#3 5).ph = .pre ∧ (starting .pre 0#3 5).dly ≠ 0) ∧
    ((starting .pre 0#3 0).dly = 0 ∧ (starting .pre 0#3 0).ph = .pre) ∧ ((sending .pw false 0).dly = 0 ∧ (sending .pw false 0).ph = .pw) ∧
    ((sending .long true 0).dly = 0 ∧ (sending .long true 0).ph = .long) := by decide

theorem witness_GapExitChoosesTheNextTransfer :
    ((starting .gap 0#3 0).rstIn = false ∧ (starting .gap 0#3 0).ph = .gap ∧ (starting .gap 0#3 0).dly = 0) ∧
    (starting .gap 0#3 0).seq = BitVec.ofNat 3 (0 : Fin 3).val ∧ (starting .gap 2#3 0).seq = BitVec.ofNat 3 (2 : Fin 3).val ∧
    (starting .gap 3#3 0).seq = 3#3 ∧ (4#3 ≤ (sending .gap false 0).seq ∧ (sending .gap false 0).nib = false) ∧
    (4#3 ≤ (sending .gap true 0).seq ∧ (sending .gap true 0).nib = true ∧ (sending .gap true 0).opc = .data) ∧
    (let s := { sending .gap true 0 with opc := .clear }; 4#3 ≤ s.seq ∧ s.nib = true ∧ s.opc = .clear) ∧
    (let s := { starting .gap 4#3 0 with nib := true }; 4#3 ≤ s.seq ∧ s.nib = true ∧ s.opc = .init) := by decide

theorem witness_WaitPhaseLastsOneMoreThanItsDelay :
    ((starting .pre 0#3 5).noReset = true ∧ (starting .pre 0#3 5).ph = .pre) ∧ (5 ≤ (starting .pre 0#3 5).dly) ∧
    ((sending .gap true 0).noReset = true ∧ (sending .gap true 0).ph = .gap) := by decide

theorem witness_NibblePulseAsAWhole :
    let s := sending .rsw false 0
    s.noReset = true ∧ s.noFailure = true ∧ s.ph = .rsw ∧ s.en = false ∧
    8 ≤ s.params.tPw + waitTicks s.params (gapKind s.seq) + 5 ∧ (nextOf (runTicks 3 s)).isSome = true := by decide

theorem witness_ByteTransferAsAWhole :
    ((ready [.offer 0x348#12]).noReset = true ∧ (ready [.offer 0x348#12]).noFailure = true ∧
      encodeRequest (if true then .data 0x48#8 else .cmd 0x48#8) = 0x348#12) ∧
    ((failing 0#6 (ready [.offer 0x280#12])).noReset = true ∧ (failing 0#6 (ready [.offer 0x280#12])).noFailure = true ∧
      (failing 0#6 (ready [.offer 0x280#12])).ph = .idle ∧ (failing 0#6 (ready [.offer 0x280#12])).inited = true ∧
      encodeRequest (if false then .data 0x80#8 else .cmd 0x80#8) = 0x280#12) := by decide

theorem witness_ClearAsAWhole :
    let s := ready [.offer 0x400#12]
    s.noReset = true ∧ s.noFailure = true ∧ s.ph = .idle ∧ s.inited = true ∧ s.host = .offer (encodeRequest .clear) :: [] := by decide

theorem witness_DispctlAsAWhole :
    let s := ready [.offer 0x507#12]
    s.noReset = true ∧ s.noFailure = true ∧ s.ph = .idle ∧ s.inited = true ∧
    s.host = .offer (encodeRequest (.dispctl true true true)) :: [] := by decide

theorem witness_InitAsAWhole :
    let s := { State.reset with host := [.offer 0x108#12] }
    s.noReset = true ∧ s.noFailure = true ∧ s.ph = .idle ∧ s.host = .offer (encodeRequest (.init true false)) :: [] := by decide

theorem witness_RepeatedInitIsIdempotentInEffect :
    let s := ready [.offer 0x10C#12, .offer 0x10C#12]
    s.noReset = true ∧ s.noFailure = true ∧ s.ph = .idle ∧
    s.host = .offer (encodeRequest (.init true true)) :: .offer (encodeRequest (.init true true)) :: [] := by decide

theorem witness_AcceptanceFixesTheDuration : (ready []).ph = .idle ∧ (ready []).inited = true := by decide

theorem witness_EveryBusyTickCountsDown :
    (sending .pw false 1).rstIn = false ∧ (sending .pw false 1).ph ≠ .idle ∧ (nextOf (step (sending .pw false 1))).isSome = true := by decide

theorem witness_EveryOperationEnds :
    (sending .gap true 1).noReset = true ∧ (sending .gap true 1).ticksLeft = 2 ∧
    (nextOf (runTicks 1 (sending .gap true 1))).isSome = true := by decide

/-- A state of a run with all the invariants: V16, before tick 6. -/
def strobing : State :=
  { sending .enl false 0 with en := true, d6 := true, d7 := false, trace := [.rs true, .data 0x4#4, .en true, .wait .pw] }

theorem witness_StepKeepsSequencing :
    (strobing.Sequenced ∧ (nextOf (step strobing)).isSome = true) ∧ (starting .pre 0#3 5).Sequenced ∧ (ready []).Sequenced :=
  ⟨⟨by decide, by decide⟩, by decide, by decide⟩

theorem witness_StepKeepsBusOrder :
    strobing.BusOrdered ∧ (nextOf (step strobing)).isSome = true := by decide

theorem witness_StepKeepsEnableInItsPhases :
    (strobing.EnableFollows ∧ (nextOf (step strobing)).isSome = true) ∧ (ready []).EnableFollows := by decide

theorem witness_StepKeepsLinesThroughThePulse :
    (strobing.LinesHold ∧ (nextOf (step strobing)).isSome = true) ∧ (sending .rsw false 0).LinesHold := by decide

theorem witness_StepKeepsNibblesPaired :
    (strobing.Sequenced ∧ strobing.EnableFollows ∧ strobing.Paired ∧ (nextOf (step strobing)).isSome = true) ∧
    ((ready []).Paired ∧ (ready []).params.hasWfail = false ∧ (ready []).ph = .idle) :=
  ⟨⟨by decide, by decide, by decide, by decide⟩, by decide⟩

theorem witness_StepKeepsDelayInItsWidth :
    strobing.params.wf = true ∧ strobing.DelayFits ∧ (nextOf (step strobing)).isSome = true := by decide

theorem witness_StickyFlagsOnlyResetClears :
    let s := { ready [] with lineErr := true, seqErr := true, illReq := true }
    (s.rstIn = false ∧ (nextOf (step s)).isSome = true ∧ s.lineErr = true ∧ s.seqErr = true ∧ s.illReq = true) ∧
    State.rstIn { ready [] with env := [⟨true, 0#6⟩] } = true := by decide

/-- R201: each of the three flags can come to be set. -/
theorem witness_FlagsAreSetOnlyByTheirCauses :
    (State.rstIn { cold with host := [.offer 0x400#12] } = false ∧ cold.seqErr = false ∧
      ask (step { cold with host := [.offer 0x400#12] }) (fun t => t.seqErr) = true) ∧
    ((ready [.offer 0xFFF#12]).rstIn = false ∧ (ready []).illReq = false ∧
      ask (step (ready [.offer 0xFFF#12])) (fun t => t.illReq) = true) ∧
    ((failing 0b000001#6 (sending .rsw false 0)).rstIn = false ∧ (sending .rsw false 0).lineErr = false ∧
      ask (step (failing 0b000001#6 (sending .rsw false 0))) (fun t => t.lineErr) = true ∧
      ask (step (failing 0b100000#6 (sending .dw false 0))) (fun t => t.lineErr) = true ∧
      ask (step (failing 0b000010#6 (sending .enl false 0))) (fun t => t.lineErr) = true) := by decide

/-- R215: `INITED` changes in each of the three ways. -/
theorem witness_OnlyInitAndResetChangeTheMode :
    ask (step { ready [] with env := [⟨true, 0#6⟩] }) (fun t => t.inited != (ready []).inited) = true ∧
    ask (step (ready [.offer 0x100#12])) (fun t => t.inited != (ready []).inited) = true ∧
    ask (step { starting .gap 4#3 0 with nib := true }) (fun t => t.inited != (starting .gap 4#3 0).inited) = true := by decide

theorem witness_ConfigurationIsWrittenOnlyByInit :
    let s := { starting .gap 4#3 0 with nib := true }
    s.rstIn = false ∧ ask (step s) (fun t => (t.cfgN, t.cfgF) != (s.cfgN, s.cfgF)) = true := by decide

/-- R28: each line can change. -/
theorem witness_LinesChangeOnlyInTheirPhases :
    (State.rstIn { sending .rsw false 0 with rs := false } = false ∧
      ask (step { sending .rsw false 0 with rs := false }) (fun t => t.rs != false) = true) ∧
    ask (step (sending .dw false 0)) (fun t => t.d6 != (sending .dw false 0).d6) = true ∧
    ask (step (sending .enh false 0)) (fun t => t.en != (sending .enh false 0).en) = true := by decide

theorem witness_GhostsRecordTheTick :
    (sending .enl false 0).rstIn = false ∧ (nextOf (step (sending .enl false 0))).isSome = true := by decide

theorem witness_FailuresDoNotSteerTheEngine :
    let s := failing 0b111100#6 (sending .dw false 0)
    s.rstIn = false ∧ State.rstIn { s with env := [] } = false ∧ (nextOf (step s)).isSome = true ∧
    (nextOf (step { s with env := [] })).isSome = true := by decide

theorem witness_ResetTickIsThePowerCycle : State.rstIn { ready [] with env := [⟨true, 0#6⟩] } = true := by decide

theorem witness_SessionDisplayRecordsAndOffers :
    let s := ready [.call (.display true false true)]
    let u := { cold with host := [.call (.display true false true)] }
    (s.rstIn = false ∧ s.ph = .idle ∧ s.host = .call (.display true false true) :: [] ∧ s.inited = true) ∧
    (u.rstIn = false ∧ u.ph = .idle ∧ u.host = .call (.display true false true) :: [] ∧ u.inited = false) := by decide

theorem witness_SessionWriteSendsExactlyTheText :
    let s := ready [.call (.write [0x68#8, 0x69#8])]
    s.noReset = true ∧ s.noFailure = true ∧ s.ph = .idle ∧ s.inited = true ∧ s.host = .call (.write [0x68#8, 0x69#8]) :: [] := by decide

theorem witness_ClearThenDisplayLeavesAllOn :
    let s := ready [.call .clear, .call (.display true true true)]
    let u := { cold with host := [.call .clear, .call (.display true true true)] }
    (s.noReset = true ∧ s.ph = .idle ∧ s.host = .call .clear :: .call (.display true true true) :: [] ∧ s.inited = true) ∧
    (u.noReset = true ∧ u.ph = .idle ∧ u.host = .call .clear :: .call (.display true true true) :: [] ∧ u.inited = false) := by decide

theorem witness_OnlySessionDisplayWritesDisp :
    let s := ready [.call (.write []), .call (.display true true false)]
    s.rstIn = false ∧ ask (step s) (fun t => t.disp != s.disp) = true := by decide

end Sys2Proof.Tests
end

section
/-! PROOFS. What one tick can do, said once: the four kinds of tick (`TickOf`), what a request on the port of an idle engine does
(`AskedOf`), and what an idle tick without one does. Invariants are proved by cases on these and never unfold `step` or `exec`. -/

namespace Sys2Proof.Machine

/-- Every kind of tick, with its guard and the state it ends in (R212, R30, R32, R33, R49). -/
inductive TickOf (s : State) : State → Prop
  | reset (hr : s.rstIn = true) : TickOf s (powerCycle s)
  | busy (hr : s.rstIn = false) (hb : s.ph ≠ .idle) : TickOf s (endTick s (engineTick s))
  | unasked (hr : s.rstIn = false) (hi : s.ph = .idle) (hq : requestAt (sessionCalls s) = none) :
      TickOf s (endTick (sessionCalls s) (idleTick (sessionCalls s)))
  | asked (i : Instr) (u : State) (hr : s.rstIn = false) (hi : s.ph = .idle) (hq : requestAt (sessionCalls s) = some i)
      (hu : exec i (sessionCalls s) = .next u) : TickOf s (endTick (sessionCalls s) u)

theorem tickOf_of_step {s t : State} (h : step s = .next t) : TickOf s t := by
  cases hr : s.rstIn with
  | true =>
    rw [step_of_rst s hr] at h
    cases h
    exact .reset hr
  | false =>
    by_cases hi : s.ph = .idle
    · cases hq : requestAt (sessionCalls s) with
      | none =>
        rw [step_of_no_request s hr hi hq] at h
        cases h
        exact .unasked hr hi hq
      | some i =>
        rw [step_of_request s i hr hq] at h
        cases hu : exec i (sessionCalls s) with
        | next u =>
          rw [hu] at h
          cases h
          exact .asked i u hr hi hq hu
        | fault r => cases r
        | refused r => rw [hu] at h; cases h
    · rw [step_of_busy s hr hi] at h
      cases h
      exact .busy hr hi

/-- What a legal request on the port of an idle engine does (R32): `INIT` is accepted always (R130), any other with `INITED = 1` only
(R150, R151, R165, R170), and else it is dropped (R207). -/
inductive AskedOf (s : State) : Instr → State → Prop
  | init (n f : Bool) : AskedOf s (.init n f) (acceptInit n f s)
  | cmd (b : Byte) (h : s.inited = true) : AskedOf s (.cmd b) (acceptByte .cmd false b s)
  | data (b : Byte) (h : s.inited = true) : AskedOf s (.data b) (acceptByte .data true b s)
  | clear (h : s.inited = true) : AskedOf s .clear (acceptByte .clear false s.params.clearCode s)
  | dispctl (d c k : Bool) (h : s.inited = true) :
      AskedOf s (.dispctl d c k) (acceptByte .dispctl false (displayControlByte s.params d c k) s)
  | dropped (i : Instr) (hi : ∀ n f, i ≠ .init n f) (h : s.inited = false) : AskedOf s i (raise (.sequenceError s.reqWord) s)

theorem whenIdle_of_idle (examine : State → State) (s : State) (h : s.ph = .idle) : whenIdle examine s = examine s :=
  if_pos h

theorem askedOf_whenIdle {s : State} {i : Instr} {examine : State → State} (hi : s.ph = .idle) (h : AskedOf s i (examine s)) :
    AskedOf s i (whenIdle examine s) := by
  rwa [whenIdle_of_idle examine s hi]

/-- The mode check (R215) decides between acceptance and the drop. -/
theorem askedOf_whenReady {s : State} {i : Instr} {accept : State → State} (hi : ∀ n f, i ≠ .init n f)
    (ha : s.inited = true → AskedOf s i (accept s)) : AskedOf s i (whenReady accept s) := by
  unfold whenReady
  split
  · next h => exact ha h
  · next h => exact .dropped i hi (Bool.eq_false_iff.mpr h)

/-- The request decoder answers requests only (R84). -/
theorem isRequest_of_decodeRequest {w : ReqWord} {i : Instr} (h : decodeRequest w = .ok i) : i.isRequest = true := by
  unfold decodeRequest at h
  dsimp only at h
  split_ifs at h <;> cases h <;> rfl

theorem idle_and_isRequest_of_requestAt {s : State} {i : Instr} (h : requestAt s = some i) : s.ph = .idle ∧ i.isRequest = true := by
  unfold requestAt at h
  split at h
  · next hc => exact ⟨hc.1, isRequest_of_decodeRequest (accepted_some h)⟩
  · cases h

theorem askedOf_of_exec {s u : State} {i : Instr} (hq : requestAt s = some i) (hu : exec i s = .next u) : AskedOf s i u := by
  obtain ⟨hi, hreq⟩ := idle_and_isRequest_of_requestAt hq
  match i, hreq with
  | .init n f, _ => cases hu; exact askedOf_whenIdle hi (.init n f)
  | .cmd b, _ => cases hu; exact askedOf_whenIdle hi (askedOf_whenReady nofun (.cmd b))
  | .data b, _ => cases hu; exact askedOf_whenIdle hi (askedOf_whenReady nofun (.data b))
  | .clear, _ => cases hu; exact askedOf_whenIdle hi (askedOf_whenReady nofun .clear)
  | .dispctl d c k, _ => cases hu; exact askedOf_whenIdle hi (askedOf_whenReady nofun (.dispctl d c k))

/-- Phase `IDLE`'s own step changes at most `ILLREQ` (R32, R208). -/
theorem idleTick_cases (s : State) : idleTick s = s ∨ idleTick s = { s with illReq := true } := by
  unfold idleTick
  split
  · split
    · exact .inr rfl
    · exact .inl rfl
  · exact .inl rfl

end Sys2Proof.Machine
end

section
/-! PROOFS. The delay counter (R35, R36): in every tick it does not grow, or it is loaded with one of the delays of R10. -/

namespace Sys2Proof.Machine

/-- How `DLY` can move, with the parameters kept: it does not grow, or it is loaded with some `T[k]` (R35). -/
def DelayMoves (s t : State) : Prop :=
  t.params = s.params ∧ (t.dly ≤ s.dly ∨ ∃ k, t.dly = waitTicks s.params k)

theorem DelayMoves.of_same {s t : State} (hp : t.params = s.params) (hd : t.dly = s.dly) : DelayMoves s t :=
  ⟨hp, .inl hd.le⟩

theorem DelayMoves.of_load {s t : State} (k : WaitKind) (hp : t.params = s.params) (hd : t.dly = waitTicks s.params k) :
    DelayMoves s t :=
  ⟨hp, .inr ⟨k, hd⟩⟩

/-- R11: every delay that can be loaded fits the counter. -/
theorem waitTicks_lt_of_wf {c : Cfg} (h : c.wf = true) (k : WaitKind) : waitTicks c k < 2 ^ c.dlyW := by
  simp only [Cfg.wf, Cfg.delaysFit, Bool.and_eq_true, decide_eq_true_eq] at h
  obtain ⟨⟨⟨⟨⟨⟨⟨⟨⟨hpo, h0⟩, h1⟩, h2⟩, h3⟩, hpw⟩, hse⟩, hlo⟩, -⟩, -⟩ := h
  match k with
  | .powerOn => exact hpo
  | .init 0 => exact h0
  | .init 1 => exact h1
  | .init 2 => exact h2
  | .init 3 => exact h3
  | .pw => exact hpw
  | .settle => exact hse
  | .long => exact hlo

theorem DelayMoves.delayFits {s t : State} (h : DelayMoves s t) (hwf : s.params.wf = true) (hs : s.DelayFits) : t.DelayFits := by
  obtain ⟨hp, hle | ⟨k, hk⟩⟩ := h
  · rw [State.DelayFits, hp]
    exact hle.trans_lt hs
  · rw [State.DelayFits, hp, hk]
    exact waitTicks_lt_of_wf hwf k

/-! ### The bus-adapter operations leave the counter alone -/

@[simp] theorem pinWrite_params (l : Line) (v : Bool) (s : State) : (pinWrite l v s).params = s.params := by
  simp [pinWrite_eq]

@[simp] theorem pinWrite_dly (l : Line) (v : Bool) (s : State) : (pinWrite l v s).dly = s.dly := by
  simp [pinWrite_eq]

@[simp] theorem setRegisterSelect_params (b : Bool) (s : State) : (setRegisterSelect b s).params = s.params := by
  simp [setRegisterSelect]

@[simp] theorem setRegisterSelect_dly (b : Bool) (s : State) : (setRegisterSelect b s).dly = s.dly := by
  simp [setRegisterSelect]

@[simp] theorem setEnable_params (b : Bool) (s : State) : (setEnable b s).params = s.params := by
  simp [setEnable]

@[simp] theorem setDataNibble_params (n : Nibble) (s : State) : (setDataNibble n s).params = s.params := by
  simp [setDataNibble]

@[simp] theorem setDataNibble_dly (n : Nibble) (s : State) : (setDataNibble n s).dly = s.dly := by
  simp [setDataNibble]

/-! ### The engine's phases -/

/-- A wait phase counts down or leaves (R35). -/
theorem waitStep_delayMoves {leave : State → State} {s : State} (h : DelayMoves s (leave s)) : DelayMoves s (waitStep leave s) := by
  by_cases hd : s.dly = 0
  · rwa [waitStep_leaving leave s hd]
  · rw [waitStep_counting leave s hd]
    exact ⟨rfl, .inl (Nat.sub_le _ 1)⟩

/-- At the end of a byte only `CLEAR` loads the counter (R120). -/
theorem endOfByte_delayMoves (s : State) : DelayMoves s (endOfByte s) := by
  unfold endOfByte
  cases s.opc with
  | clear => exact .of_load .long rfl rfl
  | init | cmd | data | dispctl | none => exact .of_same rfl rfl

theorem exitGap_delayMoves (s : State) : DelayMoves s (exitGap s) := by
  unfold exitGap
  split
  · exact .of_same rfl rfl
  · split
    · exact .of_same rfl rfl
    · split
      · exact .of_same rfl rfl
      · exact endOfByte_delayMoves s

theorem idleTick_delayMoves (s : State) : DelayMoves s (idleTick s) := by
  rcases idleTick_cases s with h | h <;> rw [h] <;> exact .of_same rfl rfl

theorem engineTick_delayMoves (s : State) : DelayMoves s (engineTick s) := by
  unfold engineTick
  cases s.ph with
  | idle => exact idleTick_delayMoves s
  | pre => exact waitStep_delayMoves (.of_same rfl rfl)
  | rsw => exact .of_same (setRegisterSelect_params _ s) (setRegisterSelect_dly _ s)
  | dw => exact .of_same (setDataNibble_params _ s) (setDataNibble_dly _ s)
  | enh => exact .of_load .pw (by simp [enhTick]) (by simp [enhTick])
  | pw => exact waitStep_delayMoves (.of_same rfl rfl)
  | enl => exact .of_load (gapKind s.seq) (by simp [enlTick]) (by simp [enlTick])
  | gap => exact waitStep_delayMoves (exitGap_delayMoves s)
  | long => exact waitStep_delayMoves (.of_same rfl rfl)

/-! ### Requests and the whole tick -/

/-- Of the requests only an accepted `INIT` loads the counter (R130). -/
theorem AskedOf.delayMoves {s u : State} {i : Instr} (h : AskedOf s i u) : DelayMoves s u := by
  cases h with
  | init n f => exact .of_load .powerOn rfl rfl
  | cmd b _ => exact .of_same rfl rfl
  | data b _ => exact .of_same rfl rfl
  | clear _ => exact .of_same rfl rfl
  | dispctl d c k _ => exact .of_same rfl rfl
  | dropped i _ _ => exact .of_same rfl rfl

/-- The session calls that begin and the end of the tick touch neither the parameters nor `DLY`. -/
theorem delayMoves_endTick_sessionCalls {s u : State} (h : DelayMoves (sessionCalls s) u) :
    DelayMoves s (endTick (sessionCalls s) u) := by
  obtain ⟨host, disp, hs⟩ := sessionCalls_eq s
  rw [hs] at h ⊢
  exact h

theorem TickOf.delayMoves {s t : State} (h : TickOf s t) : DelayMoves s t := by
  cases h with
  | reset _ => exact ⟨rfl, .inl (Nat.zero_le _)⟩
  | busy _ _ => exact engineTick_delayMoves s
  | unasked _ _ _ => exact delayMoves_endTick_sessionCalls (idleTick_delayMoves _)
  | asked i u _ _ hq hu => exact delayMoves_endTick_sessionCalls (askedOf_of_exec hq hu).delayMoves

/-- Settles O40: `DLY` does not grow or is loaded with a delay that fits (R11), and no tick writes the parameters. -/
theorem stepKeepsDelayInItsWidth : Obligations.StepKeepsDelayInItsWidth := by
  intro s t hwf hs h
  have hm : DelayMoves s t := (tickOf_of_step h).delayMoves
  exact ⟨hm.1, hm.delayFits hwf hs⟩

end Sys2Proof.Machine
end

section
/-! PROOFS. What the engine's own step can do in a busy phase (`BusyOf`), and with it what any tick without reset can do (`MoveOf`):
each case with its guard and the registers written out, so that a rule about all ticks is one case analysis. -/

namespace Sys2Proof.Machine

/-- The `LOG` events of one tick in which the lines `ls` are written, in that order (R110, R116). -/
def State.logs (s : State) (ls : List Line) : List Event := (ls.filter s.writeFails).map .log

theorem logs_append (s : State) (ls ms : List Line) : s.logs (ls ++ ms) = s.logs ls ++ s.logs ms := by
  simp [State.logs]

theorem logs_congr {s t : State} (ls : List Line) (hp : t.params = s.params) (he : t.env = s.env) : t.logs ls = s.logs ls := by
  have hw : t.writeFails = s.writeFails := funext fun l => writeFails_congr l hp he
  rw [State.logs, State.logs, hw]

/-- The line write (R110) with its failure reported as `LOG` events; the level is the written one unless the write fails. -/
theorem pinWrite_logs (l : Line) (v : Bool) (s : State) :
    ∃ x, (s.writeFails l = false → x = v) ∧
      pinWrite l v s = { setLine l x s with
        lineErr := s.lineErr || s.writeFails l, trace := s.trace ++ s.logs [l], draws := s.draws + (s.logs [l]).length } := by
  refine ⟨if s.writeFails l then Config.freeLevel s.draws else v, fun h => by simp [h], ?_⟩
  rw [pinWrite_eq]
  cases h : s.writeFails l <;> simp [State.logs, h]

theorem setRegisterSelect_logs (b : Bool) (s : State) :
    ∃ x, (s.writeFails .rs = false → x = b) ∧
      setRegisterSelect b s = { s with
        rs := x, lineErr := s.lineErr || s.writeFails .rs
        trace := s.trace ++ .rs b :: s.logs [.rs], draws := s.draws + (s.logs [.rs]).length } := by
  obtain ⟨x, hx, h⟩ := pinWrite_logs .rs b (emit (.rs b) s)
  refine ⟨x, hx, ?_⟩
  rw [setRegisterSelect, h, logs_congr (s := s) _ rfl rfl, emit_trace, List.append_assoc]
  rfl

theorem setEnable_logs (b : Bool) (s : State) :
    ∃ x, (s.writeFails .en = false → x = b) ∧
      setEnable b s = { s with
        en := x, lineErr := s.lineErr || s.writeFails .en
        trace := s.trace ++ .en b :: s.logs [.en], draws := s.draws + (s.logs [.en]).length } := by
  obtain ⟨x, hx, h⟩ := pinWrite_logs .en b (emit (.en b) s)
  refine ⟨x, hx, ?_⟩
  rw [setEnable, h, logs_congr (s := s) _ rfl rfl, emit_trace, List.append_assoc]
  rfl

/-- The four data lines (R116): each holds its bit unless its own write fails; the failures are logged in the order of the writes. -/
theorem setDataNibble_logs (n : Nibble) (s : State) :
    ∃ a b c d, (s.writeFails .d4 = false → a = n.getLsbD 0) ∧ (s.writeFails .d5 = false → b = n.getLsbD 1) ∧
      (s.writeFails .d6 = false → c = n.getLsbD 2) ∧ (s.writeFails .d7 = false → d = n.getLsbD 3) ∧
      setDataNibble n s = { s with
        d4 := a, d5 := b, d6 := c, d7 := d
        lineErr := s.lineErr || s.writeFails .d4 || s.writeFails .d5 || s.writeFails .d6 || s.writeFails .d7
        trace := s.trace ++ .data n :: s.logs [.d4, .d5, .d6, .d7]
        draws := s.draws + (s.logs [.d4, .d5, .d6, .d7]).length } := by
  have hsplit : s.logs [.d4, .d5, .d6, .d7] = s.logs [.d4] ++ (s.logs [.d5] ++ (s.logs [.d6] ++ s.logs [.d7])) := by
    simp only [← logs_append, List.cons_append, List.nil_append]
  obtain ⟨a, ha, h4⟩ := pinWrite_logs .d4 (n.getLsbD 0) (emit (.data n) s)
  obtain ⟨b, hb, h5⟩ := pinWrite_logs .d5 (n.getLsbD 1) (pinWrite .d4 (n.getLsbD 0) (emit (.data n) s))
  obtain ⟨c, hc, h6⟩ := pinWrite_logs .d6 (n.getLsbD 2)
    (pinWrite .d5 (n.getLsbD 1) (pinWrite .d4 (n.getLsbD 0) (emit (.data n) s)))
  obtain ⟨d, hd, h7⟩ := pinWrite_logs .d7 (n.getLsbD 3)
    (pinWrite .d6 (n.getLsbD 2) (pinWrite .d5 (n.getLsbD 1) (pinWrite .d4 (n.getLsbD 0) (emit (.data n) s))))
  rw [h4] at h5 hb
  rw [h4, h5] at h6 hc
  rw [h4, h5, h6] at h7 hd
  refine ⟨a, b, c, d, ha, hb, hc, hd, ?_⟩
  rw [setDataNibble, h4, h5, h6, h7, hsplit]
  simp [setLine, emit, logs_congr (s := s), writeFails_congr (s := s), Nat.add_assoc]

/-- What the engine's own step can do in a busy phase (R35, R113 to R120, R131, R166). -/
inductive BusyOf (s : State) : State → Prop
  | count (hw : s.ph.waits = true) (hd : s.dly ≠ 0) : BusyOf s { s with dly := s.dly - 1 }
  | preEnds (hp : s.ph = .pre) (hd : s.dly = 0) : BusyOf s { s with ph := .rsw }
  | select (hp : s.ph = .rsw) (x : Bool) (hx : s.writeFails .rs = false → x = s.rsq) :
      BusyOf s { s with
        rs := x, ph := .dw, lineErr := s.lineErr || s.writeFails .rs
        trace := s.trace ++ .rs s.rsq :: s.logs [.rs], draws := s.draws + (s.logs [.rs]).length }
  | drive (hp : s.ph = .dw) (a b c d : Bool)
      (ha : s.writeFails .d4 = false → a = s.cur.getLsbD 0) (hb : s.writeFails .d5 = false → b = s.cur.getLsbD 1)
      (hc : s.writeFails .d6 = false → c = s.cur.getLsbD 2) (hd : s.writeFails .d7 = false → d = s.cur.getLsbD 3) :
      BusyOf s { s with
        d4 := a, d5 := b, d6 := c, d7 := d, ph := .enh
        lineErr := s.lineErr || s.writeFails .d4 || s.writeFails .d5 || s.writeFails .d6 || s.writeFails .d7
        trace := s.trace ++ .data s.cur :: s.logs [.d4, .d5, .d6, .d7]
        draws := s.draws + (s.logs [.d4, .d5, .d6, .d7]).length }
  | rise (hp : s.ph = .enh) (x : Bool) (hx : s.writeFails .en = false → x = true) :
      BusyOf s { s with
        en := x, ph := .pw, dly := s.params.tPw, lineErr := s.lineErr || s.writeFails .en
        trace := s.trace ++ .en true :: s.logs [.en] ++ [.wait .pw], draws := s.draws + (s.logs [.en]).length }
  | pwEnds (hp : s.ph = .pw) (hd : s.dly = 0) : BusyOf s { s with ph := .enl }
  | fall (hp : s.ph = .enl) (x : Bool) (hx : s.writeFails .en = false → x = false) :
      BusyOf s { s with
        en := x, ph := .gap, dly := waitTicks s.params (gapKind s.seq), lineErr := s.lineErr || s.writeFails .en
        trace := s.trace ++ .en false :: s.logs [.en] ++ [.wait (gapKind s.seq)], draws := s.draws + (s.logs [.en]).length }
  | nextHandshake (hp : s.ph = .gap) (hd : s.dly = 0) (hq : s.seq < 3#3) :
      BusyOf s { s with seq := s.seq + 1#3, byte := handshakeByte s.params (position (s.seq + 1#3)), ph := .rsw }
  | functionSet (hp : s.ph = .gap) (hd : s.dly = 0) (hq : s.seq = 3#3) :
      BusyOf s { s with seq := 4#3, nib := false, byte := functionSetByte s.params s.argN s.argF, ph := .rsw }
  | lowHalf (hp : s.ph = .gap) (hd : s.dly = 0) (hq : 4#3 ≤ s.seq) (hn : s.nib = false) :
      BusyOf s { s with nib := true, ph := .rsw }
  | longBegins (hp : s.ph = .gap) (hd : s.dly = 0) (hq : 4#3 ≤ s.seq) (hn : s.nib = true) (ho : s.opc = .clear) :
      BusyOf s { s with dly := s.params.tLong, trace := s.trace ++ [.wait .long], ph := .long }
  | initEnds (hp : s.ph = .gap) (hd : s.dly = 0) (hq : 4#3 ≤ s.seq) (hn : s.nib = true) (ho : s.opc = .init) :
      BusyOf s { s with inited := true, cfgN := s.argN, cfgF := s.argF, ph := .idle }
  | byteEnds (hp : s.ph = .gap) (hd : s.dly = 0) (hq : 4#3 ≤ s.seq) (hn : s.nib = true) (hc : s.opc ≠ .clear)
      (hi : s.opc ≠ .init) : BusyOf s { s with ph := .idle }
  | longEnds (hp : s.ph = .long) (hd : s.dly = 0) : BusyOf s { s with ph := .idle }

/-- A wait phase counts, or does what its exit rule does (R35). -/
theorem busyOf_waitStep {leave : State → State} {s : State} (hw : s.ph.waits = true) (h : s.dly = 0 → BusyOf s (leave s)) :
    BusyOf s (waitStep leave s) := by
  by_cases hd : s.dly = 0
  · rw [waitStep_leaving leave s hd]
    exact h hd
  · rw [waitStep_counting leave s hd]
    exact .count hw hd

theorem four_le_of_not {q : BitVec 3} (hlt : ¬ q < 3#3) (hne : q ≠ 3#3) : 4#3 ≤ q := by
  revert q
  decide

theorem busyOf_endOfByte {s : State} (hp : s.ph = .gap) (hd : s.dly = 0) (hq : 4#3 ≤ s.seq) (hn : s.nib = true) :
    BusyOf s (endOfByte s) := by
  cases ho : s.opc with
  | clear => simpa only [endOfByte, ho, enterWait, emit, waitTicks] using BusyOf.longBegins hp hd hq hn ho
  | init => simpa only [endOfByte, ho] using BusyOf.initEnds hp hd hq hn ho
  | cmd | data | dispctl | none =>
    simpa only [endOfByte, ho] using BusyOf.byteEnds hp hd hq hn (by simp [ho]) (by simp [ho])

theorem busyOf_exitGap {s : State} (hp : s.ph = .gap) (hd : s.dly = 0) : BusyOf s (exitGap s) := by
  unfold exitGap
  split
  · next hq => exact .nextHandshake hp hd hq
  · next hlt =>
    split
    · next hq => exact .functionSet hp hd hq
    · next hne =>
      have hq : 4#3 ≤ s.seq := four_le_of_not hlt hne
      split
      · next hn => exact .lowHalf hp hd hq hn
      · next hn => exact busyOf_endOfByte hp hd hq (Bool.not_eq_false _ ▸ hn)

theorem busyOf_engineTick {s : State} (hb : s.ph ≠ .idle) : BusyOf s (engineTick s) := by
  unfold engineTick
  cases hp : s.ph with
  | idle => exact absurd hp hb
  | pre => exact busyOf_waitStep (by simp [hp, Phase.waits]) (.preEnds hp)
  | pw => exact busyOf_waitStep (by simp [hp, Phase.waits]) (.pwEnds hp)
  | gap => exact busyOf_waitStep (by simp [hp, Phase.waits]) (busyOf_exitGap hp)
  | long => exact busyOf_waitStep (by simp [hp, Phase.waits]) (.longEnds hp)
  | rsw =>
    obtain ⟨x, hx, h⟩ := setRegisterSelect_logs s.rsq s
    rw [rswTick, h]
    exact .select hp x hx
  | dw =>
    obtain ⟨a, b, c, d, ha, hb, hc, hd, h⟩ := setDataNibble_logs s.cur s
    rw [dwTick, h]
    exact .drive hp a b c d ha hb hc hd
  | enh =>
    obtain ⟨x, hx, h⟩ := setEnable_logs true s
    rw [enhTick, h]
    exact .rise hp x hx
  | enl =>
    obtain ⟨x, hx, h⟩ := setEnable_logs false s
    rw [enlTick, h]
    exact .fall hp x hx

/-- What the engine can do in a tick without reset: its busy step, nothing, the drop of an illegal word (R208), or a legal request (R32). -/
inductive MoveOf (s : State) : State → Prop
  | busy {u : State} (hb : s.ph ≠ .idle) (h : BusyOf s u) : MoveOf s u
  | rest (hi : s.ph = .idle) : MoveOf s s
  | illegal (hi : s.ph = .idle) : MoveOf s { s with illReq := true }
  | asked {i : Instr} {u : State} (hi : s.ph = .idle) (h : AskedOf s i u) : MoveOf s u

/-- A tick without reset: the session calls that begin touch the host's list and `DISP` only, the engine moves, the tick ends. -/
theorem moveOf_of_step {s t : State} (hr : s.rstIn = false) (h : step s = .next t) :
    ∃ host disp u, MoveOf { s with host := host, disp := disp } u ∧ t = endTick { s with host := host, disp := disp } u := by
  have hph : (sessionCalls s).ph = s.ph := sessionCalls_ph s
  obtain ⟨host, disp, hs⟩ := sessionCalls_eq s
  cases tickOf_of_step h with
  | reset hrst => exact absurd hrst (by simp [hr])
  | busy _ hb => exact ⟨s.host, s.disp, _, .busy hb (busyOf_engineTick hb), rfl⟩
  | unasked _ hi hq =>
    refine ⟨host, disp, _, ?_, congrArg (endTick · _) hs⟩
    rw [← hs]
    rcases idleTick_cases (sessionCalls s) with hm | hm <;> rw [hm]
    · exact .rest (hph.trans hi)
    · exact .illegal (hph.trans hi)
  | asked i u _ hi hq hu =>
    refine ⟨host, disp, u, ?_, congrArg (endTick · u) hs⟩
    rw [← hs]
    exact .asked (hph.trans hi) (askedOf_of_exec hq hu)

end Sys2Proof.Machine
end

section
/-! PROOFS. The end of an operation: every busy tick counts `ticksLeft` down by one, so a run reaches `IDLE` exactly when it is used up
(R36, R154, R254). -/

namespace Sys2Proof.Machine

/-! ### Inputs without reset -/

theorem rstIn_of_noReset {s : State} (h : s.noReset = true) : s.rstIn = false := by
  unfold State.noReset at h
  unfold State.rstIn
  cases he : s.env with
  | nil => rfl
  | cons e t => simp_all

theorem noReset_of_env_drop {s t : State} (k : Nat) (h : s.noReset = true) (he : t.env = s.env.drop k) : t.noReset = true := by
  rw [State.noReset, he, List.all_eq_true]
  exact fun e hm => List.all_eq_true.mp h e (List.mem_of_mem_drop hm)

theorem BusyOf.env {s u : State} (h : BusyOf s u) : u.env = s.env := by
  cases h <;> rfl

/-- A busy tick without reset, as a move of the engine. -/
theorem busyOf_of_step {s t : State} (hr : s.rstIn = false) (hb : s.ph ≠ .idle) (h : step s = .next t) :
    ∃ u, BusyOf s u ∧ t = endTick s u := by
  rw [step_of_busy s hr hb] at h
  cases h
  exact ⟨_, busyOf_engineTick hb, rfl⟩

theorem noReset_of_busyStep {s t : State} (hn : s.noReset = true) (hb : s.ph ≠ .idle) (h : step s = .next t) :
    t.noReset = true := by
  obtain ⟨u, hu, rfl⟩ := busyOf_of_step (rstIn_of_noReset hn) hb h
  exact noReset_of_env_drop 1 hn (by rw [endTick_env, hu.env, List.drop_one])

/-! ### One tick nearer -/

/-- The pulse of handshake position `q + 1` and what follows it is what follows the pulse of position `q` (R120). -/
theorem afterPulseTicks_handshake (c : Cfg) (op : Opc) (q : BitVec 3) (nib : Bool) (h : q < 3#3) :
    afterPulseTicks c op q nib =
      pulseTicks c (gapKind (q + 1#3)) + afterPulseTicks c op (q + 1#3) nib := by
  have hq : q = 0#3 ∨ q = 1#3 ∨ q = 2#3 := by revert q; decide
  rcases hq with rfl | rfl | rfl <;>
    simp [afterPulseTicks, gapKind, position, Fin.ofNat] <;> omega

theorem afterPulseTicks_last (c : Cfg) (op : Opc) (nib : Bool) :
    afterPulseTicks c op 3#3 nib = pulseTicks c .settle + afterPulseTicks c op 4#3 false := by
  simp [afterPulseTicks]
  omega

theorem afterPulseTicks_byte (c : Cfg) (op : Opc) (q : BitVec 3) (nib : Bool) (h : 4#3 ≤ q) :
    afterPulseTicks c op q nib = if nib then tailTicks c op else pulseTicks c .settle + tailTicks c op := by
  have hq : q ≠ 0#3 ∧ q ≠ 1#3 ∧ q ≠ 2#3 ∧ q ≠ 3#3 := by revert q; decide
  simp [afterPulseTicks, hq]

theorem gapKind_of_byte {q : BitVec 3} (h : 4#3 ≤ q) : gapKind q = .settle := by
  simp [gapKind, BitVec.not_lt.mpr h]

theorem BusyOf.ticksLeft {s u : State} (h : BusyOf s u) : u.ticksLeft + 1 = s.ticksLeft := by
  cases h with
  | count hw hd =>
    cases hp : s.ph <;> simp [Phase.waits, hp] at hw <;> simp only [State.ticksLeft, hp] <;> omega
  | preEnds hp hd => simp only [State.ticksLeft, hp, hd, pulseTicks]; omega
  | select hp | drive hp | rise hp | fall hp => simp only [State.ticksLeft, hp]; omega
  | pwEnds hp hd => simp only [State.ticksLeft, hp, hd]; omega
  | nextHandshake hp hd hq =>
    simp only [State.ticksLeft, hp, hd, afterPulseTicks_handshake _ _ _ _ hq, pulseTicks]
    omega
  | functionSet hp hd hq =>
    have hg : gapKind 4#3 = .settle := by decide
    simp only [State.ticksLeft, hp, hd, hq, afterPulseTicks_last, pulseTicks, hg]
    omega
  | lowHalf hp hd hq hn =>
    simp only [State.ticksLeft, hp, hd, hn, afterPulseTicks_byte _ _ _ _ hq, gapKind_of_byte hq, pulseTicks]
    simp
    omega
  | longBegins hp hd hq hn ho =>
    simp [State.ticksLeft, hp, hd, hn, ho, afterPulseTicks_byte _ _ _ _ hq, tailTicks, Nat.add_comm]
  | initEnds hp hd hq hn ho =>
    simp [State.ticksLeft, hp, hd, hn, ho, afterPulseTicks_byte _ _ _ _ hq, tailTicks]
  | byteEnds hp hd hq hn hc =>
    simp [State.ticksLeft, hp, hd, hn, hc, afterPulseTicks_byte _ _ _ _ hq, tailTicks]
  | longEnds hp hd => simp [State.ticksLeft, hp, hd]

theorem ticksLeft_endTick (s u : State) : (endTick s u).ticksLeft = u.ticksLeft := rfl

/-- Settles O33: each move of a busy engine uses up one tick of `ticksLeft`, and the end of the tick touches nothing it is made of. -/
theorem everyBusyTickCountsDown : Obligations.EveryBusyTickCountsDown := by
  intro s t hr hb h
  obtain ⟨u, hu, rfl⟩ := busyOf_of_step hr hb h
  rw [ticksLeft_endTick]
  exact hu.ticksLeft

/-! ### Runs to the end -/

theorem ticksLeft_eq_zero_iff (s : State) : s.ticksLeft = 0 ↔ s.ph = .idle := by
  cases hp : s.ph <;> simp [State.ticksLeft, hp]

/-- With `n` ticks left the engine is idle after `n` ticks and busy before. -/
theorem idle_exactly_after_ticksLeft (n : Nat) (s : State) (hn : s.noReset = true) (hl : s.ticksLeft = n) :
    (∃ t, runTicks n s = .next t ∧ t.ph = .idle) ∧ (∀ j t, j < n → runTicks j s = .next t → t.ph ≠ .idle) := by
  induction n generalizing s with
  | zero => exact ⟨⟨s, rfl, (ticksLeft_eq_zero_iff s).mp hl⟩, fun j t hj => absurd hj (Nat.not_lt_zero j)⟩
  | succ n ih =>
    have hb : s.ph ≠ .idle := fun hi => by simp [(ticksLeft_eq_zero_iff s).mpr hi] at hl
    have hstep := step_of_busy s (rstIn_of_noReset hn) hb
    have hdown := everyBusyTickCountsDown s _ (rstIn_of_noReset hn) hb hstep
    obtain ⟨hend, hbefore⟩ := ih _ (noReset_of_busyStep hn hb hstep) (Nat.succ_injective (hdown.trans hl))
    refine ⟨by rwa [runTicks_succ n s _ hstep], fun j t hj hrun => ?_⟩
    cases j with
    | zero =>
      cases hrun
      exact hb
    | succ j =>
      rw [runTicks_succ j s _ hstep] at hrun
      exact hbefore j t (Nat.lt_of_succ_lt_succ hj) hrun

/-- Settles O34, by induction on the ticks left. -/
theorem everyOperationEnds : Obligations.EveryOperationEnds :=
  fun s hn => idle_exactly_after_ticksLeft s.ticksLeft s hn rfl

end Sys2Proof.Machine
end

section
/-! PROOFS. The invariants of the sequencer (R24, R25, R34, R38, R215) and of the order on the bus (R70, R71): reset meets them and every
move of the engine keeps them. -/

namespace Sys2Proof.Machine

/-! ### The sequencer -/

/-- The registers `Sequenced` speaks of besides `PH`. -/
def State.sequencer (s : State) : Cfg × Opc × BitVec 3 × Bool × Byte × Bool × Bool × Bool × Bool :=
  (s.params, s.opc, s.seq, s.nib, s.byte, s.rsq, s.argN, s.argF, s.inited)

/-- Inside an operation, going on to a phase of its pulses asks nothing new of the registers. -/
theorem sequenced_of_pulsePhase {s u : State} (hs : s.Sequenced) (hb : s.ph ≠ .idle) (hu : u.sequencer = s.sequencer)
    (hph : u.ph ≠ .idle ∧ u.ph ≠ .pre ∧ u.ph ≠ .long) : u.Sequenced := by
  simp only [State.sequencer, Prod.mk.injEq] at hu
  obtain ⟨hpar, hopc, hseq, hnib, hbyte, hrsq, hargN, hargF, hini⟩ := hu
  simp_all [State.Sequenced]

theorem sequenced_powerCycle (s : State) : (powerCycle s).Sequenced := by
  simp [State.Sequenced, powerCycle, State.reset]

theorem BusyOf.ph_ne_idle {s u : State} (h : BusyOf s u) : s.ph ≠ .idle := by
  cases h with
  | count hw _ => intro hi; simp [hi, Phase.waits] at hw
  | _ => simp [*]

theorem succ_lt_four_of_lt_three {q : BitVec 3} (h : q < 3#3) : q < 4#3 ∧ q + 1#3 < 4#3 ∧ q + 1#3 ≤ 4#3 ∧ q + 1#3 ≠ 4#3 := by
  revert q
  decide

theorem BusyOf.sequenced {s u : State} (hs : s.Sequenced) (h : BusyOf s u) : u.Sequenced := by
  have hb := h.ph_ne_idle
  obtain ⟨hle, hhalf, hlevel, hop, hhand, hpre, hlong, hmode, hmodeIdle, hdone, hclear, hnibble, hfun⟩ := id hs
  cases h with
  | count _ _ => exact hs
  | preEnds hp | select hp | drive hp | rise hp | pwEnds hp | fall hp =>
    exact sequenced_of_pulsePhase hs hb rfl (by simp)
  | nextHandshake hp hd hq =>
    obtain ⟨hq4, hlt, hle', hne⟩ := succ_lt_four_of_lt_three hq
    have ho : s.opc = .init := hhand hb hq4
    simp_all [State.Sequenced]
  | functionSet hp hd hq =>
    have ho : s.opc = .init := hhand hb (by simp [hq])
    simp_all [State.Sequenced]
  | lowHalf hp hd hq hn =>
    have hq4 : s.seq = 4#3 := BitVec.le_antisymm hle hq
    simp_all [State.Sequenced]
  | longBegins hp hd hq hn ho | initEnds hp hd hq hn ho =>
    have hq4 : s.seq = 4#3 := BitVec.le_antisymm hle hq
    simp_all [State.Sequenced]
  | byteEnds hp hd hq hn hc hi =>
    have hq4 : s.seq = 4#3 := BitVec.le_antisymm hle hq
    have hi' : (s.opc != .init) = true := bne_iff_ne.mpr hi
    have hn' : (s.opc != .none) = true := bne_iff_ne.mpr (hop hb)
    simp_all [State.Sequenced]
  | longEnds hp hd =>
    have hi : (Opc.clear != .init) = true ∧ (Opc.clear != .none) = true := by decide
    simp_all [State.Sequenced]

theorem AskedOf.sequenced {s u : State} {i : Instr} (hs : s.Sequenced) (h : AskedOf s i u) : u.Sequenced := by
  cases h with
  | init n f => simp [State.Sequenced, acceptInit, position, Fin.ofNat]
  | cmd b hr | data b hr | clear hr | dispctl d c k hr => simp [State.Sequenced, acceptByte, hr]
  | dropped i hi hr => exact hs

theorem MoveOf.sequenced {s u : State} (hs : s.Sequenced) (h : MoveOf s u) : u.Sequenced := by
  cases h with
  | busy hb h => exact h.sequenced hs
  | rest hi => exact hs
  | illegal hi => exact hs
  | asked hi h => exact h.sequenced hs

/-- A tick with reset is the power cycle. -/
theorem eq_powerCycle_of_step {s t : State} (hr : s.rstIn = true) (h : step s = .next t) : t = powerCycle s := by
  rw [step_of_rst s hr] at h
  cases h
  rfl

/-- Settles O35: the power cycle meets the invariant, and each move of the engine keeps it. -/
theorem stepKeepsSequencing : Obligations.StepKeepsSequencing := by
  intro s t hs h
  cases hr : s.rstIn with
  | true => exact eq_powerCycle_of_step hr h ▸ sequenced_powerCycle s
  | false =>
    obtain ⟨host, disp, u, hm, rfl⟩ := moveOf_of_step hr h
    have hu : u.Sequenced := hm.sequenced (s := { s with host := host, disp := disp }) hs
    exact hu

/-! ### The order on the bus -/

theorem stageAfter_append (es fs : List Event) :
    stageAfter (es ++ fs) = fs.foldl (fun st e => st.bind (fun b => b.after e)) (stageAfter es) := by
  rw [stageAfter, List.foldl_append]
  rfl

theorem stageAfter_snoc (es : List Event) (e : Event) : stageAfter (es ++ [e]) = (stageAfter es).bind (·.after e) := by
  rw [stageAfter_append]
  rfl

/-- Reported failures do not move the bus (R110). -/
theorem stageAfter_logs (es : List Event) (s : State) (ls : List Line) : stageAfter (es ++ s.logs ls) = stageAfter es := by
  have hlog : ∀ (st : Option BusStage) (l : Line), st.bind (·.after (.log l)) = st := by
    rintro (_ | st) l
    · rfl
    · cases st <;> rfl
  rw [stageAfter_append, State.logs]
  induction ls.filter s.writeFails with
  | nil => rfl
  | cons l ls ih => rwa [List.map_cons, List.foldl_cons, hlog]

theorem stageAfter_event_logs (es : List Event) (e : Event) (s : State) (ls : List Line) :
    stageAfter (es ++ e :: s.logs ls) = (stageAfter es).bind (·.after e) := by
  rw [List.append_cons, stageAfter_logs, stageAfter_snoc]

/-- After the fall of `EN` the wait of either kind of gap brings the bus to rest (R118). -/
theorem after_gapKind (q : BitVec 3) : BusStage.low.after (.wait (gapKind q)) = some .rest := by
  unfold gapKind
  split <;> rfl

/-- A tick that emits one event, whatever failures it reports. -/
theorem busOrdered_of_event {s u : State} {e : Event} {ls : List Line} (hs : s.BusOrdered)
    (htrace : u.trace = s.trace ++ e :: s.logs ls) (hstage : s.ph.stage.after e = some u.ph.stage) : u.BusOrdered := by
  rw [State.BusOrdered, htrace, stageAfter_event_logs, hs]
  exact hstage

/-- A tick that emits an event and then a wait. -/
theorem busOrdered_of_event_wait {s u : State} {e : Event} {k : WaitKind} {ls : List Line} {st : BusStage} (hs : s.BusOrdered)
    (htrace : u.trace = s.trace ++ e :: s.logs ls ++ [.wait k]) (he : s.ph.stage.after e = some st)
    (hk : st.after (.wait k) = some u.ph.stage) : u.BusOrdered := by
  rw [State.BusOrdered, htrace, stageAfter_snoc, stageAfter_event_logs, hs, Option.bind_some, he]
  exact hk

/-- A tick that emits only a wait. -/
theorem busOrdered_of_wait {s u : State} {k : WaitKind} (hs : s.BusOrdered) (htrace : u.trace = s.trace ++ [.wait k])
    (hk : s.ph.stage.after (.wait k) = some u.ph.stage) : u.BusOrdered := by
  rw [State.BusOrdered, htrace, stageAfter_snoc, hs]
  exact hk

/-- A tick that emits nothing keeps the stage of its phase. -/
theorem busOrdered_of_silence {s u : State} (hs : s.BusOrdered) (htrace : u.trace = s.trace) (hstage : u.ph.stage = s.ph.stage) :
    u.BusOrdered := by
  rw [State.BusOrdered, htrace, hstage]
  exact hs

theorem BusyOf.busOrdered {s u : State} (hs : s.BusOrdered) (h : BusyOf s u) : u.BusOrdered := by
  cases h with
  | count _ _ => exact hs
  | select hp x _ => exact busOrdered_of_event hs rfl (by rw [hp]; rfl)
  | drive hp a b c d _ _ _ _ => exact busOrdered_of_event hs rfl (by rw [hp]; rfl)
  | rise hp x _ => exact busOrdered_of_event_wait hs rfl (by rw [hp]; rfl) rfl
  | fall hp x _ => exact busOrdered_of_event_wait hs rfl (by rw [hp]; rfl) (after_gapKind s.seq)
  | longBegins hp _ _ _ _ => exact busOrdered_of_wait hs rfl (by rw [hp]; rfl)
  | preEnds hp | pwEnds hp | nextHandshake hp | functionSet hp | lowHalf hp | initEnds hp | byteEnds hp | longEnds hp =>
    exact busOrdered_of_silence hs rfl (by rw [hp]; rfl)

theorem AskedOf.busOrdered {s u : State} {i : Instr} (hs : s.BusOrdered) (hi : s.ph = .idle) (h : AskedOf s i u) :
    u.BusOrdered := by
  cases h with
  | init n f => exact busOrdered_of_wait hs rfl (by rw [hi]; rfl)
  | cmd | data | clear | dispctl => exact busOrdered_of_silence hs rfl (by rw [hi]; rfl)
  | dropped => exact hs

theorem MoveOf.busOrdered {s u : State} (hs : s.BusOrdered) (h : MoveOf s u) : u.BusOrdered := by
  cases h with
  | busy _ h => exact h.busOrdered hs
  | rest _ => exact hs
  | illegal _ => exact hs
  | asked hi h => exact h.busOrdered hs hi

/-- Settles O36: the power cycle empties `TRACE`, and each move emits the event its phase stands before. -/
theorem stepKeepsBusOrder : Obligations.StepKeepsBusOrder := by
  intro s t hs h
  cases hr : s.rstIn with
  | true =>
    rw [eq_powerCycle_of_step hr h]
    rfl
  | false =>
    obtain ⟨host, disp, u, hm, rfl⟩ := moveOf_of_step hr h
    have hu : u.BusOrdered := hm.busOrdered (s := { s with host := host, disp := disp }) hs
    exact hu

/-- Settles O41: the state after reset is the power cycle's, and the default parameters meet R11. -/
theorem resetMeetsTheInvariants : Obligations.ResetMeetsTheInvariants :=
  ⟨sequenced_powerCycle State.reset, rfl, fun _ => ⟨rfl, rfl⟩, fun _ => ⟨by simp [State.reset], by simp [State.reset]⟩,
    fun _ => rfl, by decide, by decide, by decide⟩

end Sys2Proof.Machine
end

section
/-! PROOFS. Rules of the whole machine, each read off the moves of the engine: the sticky flags (R39), the mode (R38, R215), the
configuration (R40), the lines (R21, R28, R121) and the ghosts (R45, R46, R47). -/

namespace Sys2Proof.Machine

/-! ### The sticky flags -/

/-- No flag that is set in `s` is clear in `t`. -/
def FlagsKept (s t : State) : Prop :=
  (s.lineErr = true → t.lineErr = true) ∧ (s.seqErr = true → t.seqErr = true) ∧ (s.illReq = true → t.illReq = true)

theorem FlagsKept.of_same {s t : State} (hl : t.lineErr = s.lineErr) (hs : t.seqErr = s.seqErr) (hi : t.illReq = s.illReq) :
    FlagsKept s t :=
  ⟨hl.trans, hs.trans, hi.trans⟩

theorem BusyOf.flagsKept {s u : State} (h : BusyOf s u) : FlagsKept s u := by
  cases h with
  | select _ _ _ | drive _ _ _ _ _ _ _ _ _ | rise _ _ _ | fall _ _ _ => exact ⟨fun h => by simp [h], id, id⟩
  | _ => exact .of_same rfl rfl rfl

theorem AskedOf.flagsKept {s u : State} {i : Instr} (h : AskedOf s i u) : FlagsKept s u := by
  cases h with
  | dropped _ _ _ => exact ⟨id, fun _ => rfl, id⟩
  | _ => exact .of_same rfl rfl rfl

theorem MoveOf.flagsKept {s u : State} (h : MoveOf s u) : FlagsKept s u := by
  cases h with
  | busy _ h => exact h.flagsKept
  | rest _ => exact .of_same rfl rfl rfl
  | illegal _ => exact ⟨id, id, fun _ => rfl⟩
  | asked _ h => exact h.flagsKept

/-- Settles O43: each move keeps the flags, `raise` sets one, and the power cycle clears all three. -/
theorem stickyFlagsOnlyResetClears : Obligations.StickyFlagsOnlyResetClears := by
  refine ⟨fun s t hr h => ?_, fun s l w => ⟨rfl, rfl, rfl⟩, fun s hr => ⟨powerCycle s, step_of_rst s hr, rfl, rfl, rfl⟩⟩
  obtain ⟨host, disp, u, hm, rfl⟩ := moveOf_of_step hr h
  exact hm.flagsKept

/-! ### The mode and the configuration -/

/-- Of the busy moves only the end of an `INIT` writes `INITED` and `CFG` (R38, R40, R120). -/
theorem BusyOf.mode {s u : State} (h : BusyOf s u) :
    (u.inited = s.inited ∧ u.cfgN = s.cfgN ∧ u.cfgF = s.cfgF) ∨
    (s.ph = .gap ∧ s.dly = 0 ∧ s.opc = .init ∧ s.nib = true ∧ u.ph = .idle ∧ u.inited = true ∧ u.cfgN = s.argN ∧ u.cfgF = s.argF) := by
  cases h with
  | initEnds hp hd _ hn ho => exact .inr ⟨hp, hd, ho, hn, rfl, rfl, rfl, rfl⟩
  | _ => exact .inl ⟨rfl, rfl, rfl⟩

/-- Of the requests only an accepted `INIT` writes `INITED`, and none writes `CFG` (R130, R40). -/
theorem AskedOf.mode {s u : State} {i : Instr} (h : AskedOf s i u) :
    (u.inited = s.inited ∨ u.inited = false ∧ u.ph = .pre ∧ u.opc = .init) ∧ u.cfgN = s.cfgN ∧ u.cfgF = s.cfgF := by
  cases h with
  | init _ _ => exact ⟨.inr ⟨rfl, rfl, rfl⟩, rfl, rfl⟩
  | _ => exact ⟨.inl rfl, rfl, rfl⟩

/-- What a tick without reset can do to `INITED` and `CFG`. -/
theorem MoveOf.mode {s u : State} (h : MoveOf s u) :
    (u.inited = s.inited ∧ u.cfgN = s.cfgN ∧ u.cfgF = s.cfgF) ∨
    (s.ph = .idle ∧ u.ph = .pre ∧ u.opc = .init ∧ u.inited = false ∧ u.cfgN = s.cfgN ∧ u.cfgF = s.cfgF) ∨
    (s.ph = .gap ∧ s.dly = 0 ∧ s.opc = .init ∧ s.nib = true ∧ u.ph = .idle ∧ u.inited = true ∧ u.cfgN = s.argN ∧ u.cfgF = s.argF) := by
  cases h with
  | busy _ h => exact h.mode.imp_right .inr
  | rest _ => exact .inl ⟨rfl, rfl, rfl⟩
  | illegal _ => exact .inl ⟨rfl, rfl, rfl⟩
  | asked hi h =>
    obtain ⟨hsame | ⟨hini, hph, hopc⟩, hcfg⟩ := h.mode
    · exact .inl ⟨hsame, hcfg⟩
    · exact .inr (.inl ⟨hi, hph, hopc, hini, hcfg⟩)

/-- Settles O45. -/
theorem onlyInitAndResetChangeTheMode : Obligations.OnlyInitAndResetChangeTheMode := by
  intro s t h hne
  cases hr : s.rstIn with
  | true => exact .inl ⟨by rw [eq_powerCycle_of_step hr h]; rfl, rfl⟩
  | false =>
    obtain ⟨host, disp, u, hm, rfl⟩ := moveOf_of_step hr h
    rcases hm.mode with ⟨hini, -⟩ | ⟨hi, hph, hopc, hini, -⟩ | ⟨hp, hd, ho, hn, hph, hini, -⟩
    · exact absurd hini hne
    · exact .inr (.inl ⟨hini, hi, hph, hopc⟩)
    · exact .inr (.inr ⟨hini, hp, hd, ho, hn, hph⟩)

/-- Settles O46. -/
theorem configurationIsWrittenOnlyByInit : Obligations.ConfigurationIsWrittenOnlyByInit := by
  intro s t hr h hne
  obtain ⟨host, disp, u, hm, rfl⟩ := moveOf_of_step hr h
  rcases hm.mode with ⟨-, hN, hF⟩ | ⟨-, -, -, -, hN, hF⟩ | ⟨hp, hd, ho, -, -, hini, hN, hF⟩
  · exact absurd (Prod.ext hN hF) hne
  · exact absurd (Prod.ext hN hF) hne
  · exact ⟨hp, hd, ho, hini, hN, hF⟩

/-! ### The lines -/

/-- Each line is either as it was, or this is a phase that writes it (R28). -/
def LinesMove (s t : State) : Prop :=
  (t.rs = s.rs ∨ s.ph = .rsw) ∧
  ((t.d4 = s.d4 ∧ t.d5 = s.d5 ∧ t.d6 = s.d6 ∧ t.d7 = s.d7) ∨ s.ph = .dw) ∧
  (t.en = s.en ∨ s.ph = .enh ∨ s.ph = .enl)

/-- The levels of the six lines. -/
def State.lines (s : State) : Bool × Bool × Bool × Bool × Bool × Bool := (s.rs, s.en, s.d4, s.d5, s.d6, s.d7)

theorem LinesMove.of_same {s t : State} (h : t.lines = s.lines) : LinesMove s t := by
  simp only [State.lines, Prod.mk.injEq] at h
  obtain ⟨hrs, hen, h4, h5, h6, h7⟩ := h
  exact ⟨.inl hrs, .inl ⟨h4, h5, h6, h7⟩, .inl hen⟩

theorem BusyOf.linesMove {s u : State} (h : BusyOf s u) : LinesMove s u := by
  cases h with
  | select hp _ _ => exact ⟨.inr hp, .inl ⟨rfl, rfl, rfl, rfl⟩, .inl rfl⟩
  | drive hp _ _ _ _ _ _ _ _ => exact ⟨.inl rfl, .inr hp, .inl rfl⟩
  | rise hp _ _ => exact ⟨.inl rfl, .inl ⟨rfl, rfl, rfl, rfl⟩, .inr (.inl hp)⟩
  | fall hp _ _ => exact ⟨.inl rfl, .inl ⟨rfl, rfl, rfl, rfl⟩, .inr (.inr hp)⟩
  | _ => exact .of_same rfl

theorem MoveOf.linesMove {s u : State} (h : MoveOf s u) : LinesMove s u := by
  cases h with
  | busy _ h => exact h.linesMove
  | rest _ => exact .of_same rfl
  | illegal _ => exact .of_same rfl
  | asked _ h => cases h <;> exact .of_same rfl

/-- Settles O47. -/
theorem linesChangeOnlyInTheirPhases : Obligations.LinesChangeOnlyInTheirPhases := by
  intro s t hr h
  obtain ⟨host, disp, u, hm, rfl⟩ := moveOf_of_step hr h
  obtain ⟨hrs, hdata, hen⟩ := hm.linesMove
  refine ⟨fun hne => hrs.resolve_left hne, fun hne => hdata.resolve_left ?_, fun hne => hen.resolve_left hne⟩
  rintro ⟨h4, h5, h6, h7⟩
  exact hne.elim (· h4) (·.elim (· h5) (·.elim (· h6) (· h7)))

/-! ### The ghosts -/

/-- What a move leaves to the end of the tick, and that it only appends to `TRACE`. -/
def GhostsKept (s t : State) : Prop :=
  t.params = s.params ∧ t.now = s.now ∧ t.lat = s.lat ∧ s.trace <+: t.trace

theorem BusyOf.ghostsKept {s u : State} (h : BusyOf s u) : GhostsKept s u := by
  cases h with
  | select _ _ _ | drive _ _ _ _ _ _ _ _ _ | longBegins _ _ _ _ _ => exact ⟨rfl, rfl, rfl, List.prefix_append _ _⟩
  | rise _ _ _ | fall _ _ _ => exact ⟨rfl, rfl, rfl, (List.prefix_append _ _).trans (List.prefix_append _ _)⟩
  | _ => exact ⟨rfl, rfl, rfl, List.prefix_rfl⟩

theorem AskedOf.ghostsKept {s u : State} {i : Instr} (h : AskedOf s i u) : GhostsKept s u := by
  cases h with
  | init _ _ => exact ⟨rfl, rfl, rfl, List.prefix_append _ _⟩
  | _ => exact ⟨rfl, rfl, rfl, List.prefix_rfl⟩

theorem MoveOf.ghostsKept {s u : State} (h : MoveOf s u) : GhostsKept s u := by
  cases h with
  | busy _ h => exact h.ghostsKept
  | rest _ => exact ⟨rfl, rfl, rfl, List.prefix_rfl⟩
  | illegal _ => exact ⟨rfl, rfl, rfl, List.prefix_rfl⟩
  | asked _ h => exact h.ghostsKept

/-- `LAT` at the end of a tick whose move left it alone (R47). -/
theorem latched_eq {s u : State} (hlat : u.lat = s.lat) :
    latched s u = if s.en = true ∧ u.en = false then s.lat ++ [(s.rs, s.dn)] else s.lat := by
  simp [latched, hlat]

/-- Settles O48: a move leaves `NOW` and `LAT` to the end of the tick, which counts and latches. -/
theorem ghostsRecordTheTick : Obligations.GhostsRecordTheTick := by
  intro s t hr h
  obtain ⟨host, disp, u, hm, rfl⟩ := moveOf_of_step hr h
  obtain ⟨hpar, hnow, hlat, es, htrace⟩ := hm.ghostsKept
  exact ⟨hpar, congrArg (· + 1) hnow, ⟨es, htrace.symm⟩, latched_eq hlat⟩

end Sys2Proof.Machine
end

section
/-! PROOFS. A tick runs what it fetches (R32, R33, R75, R93, R113): the word on the port of an idle engine, or the transfer the serializer
holds; and a busy engine does not look at the port. -/

namespace Sys2Proof.Machine

/-! ### An idle engine and its port -/

theorem AskedOf.inputsKept {s u : State} {i : Instr} (h : AskedOf s i u) : u.now = s.now ∧ u.host = s.host ∧ u.env = s.env := by
  cases h <;> exact ⟨rfl, rfl, rfl⟩

/-- A legal word on the port is the request of the tick (R32). -/
theorem requestAt_of_word {s : State} {w : ReqWord} {rest : List HostAct} {i : Instr} (hi : s.ph = .idle)
    (hh : s.host = .offer w :: rest ∨ s.host = .glance w :: rest) (hd : decodeRequest w = .ok i) : requestAt s = some i := by
  rcases hh with hh | hh <;> simp [requestAt, State.reqValid, State.reqWord, hi, hh, hd, accepted]

/-- Every instruction has a meaning in every state (R83, R204). -/
theorem exec_next (i : Instr) (s : State) : ∃ u, exec i s = .next u := by
  cases i <;> exact ⟨_, rfl⟩

/-- The tick of a legal word on the port: its meaning, and the end of the tick. -/
theorem step_of_word {s : State} {w : ReqWord} {rest : List HostAct} {i : Instr} (hr : s.rstIn = false) (hi : s.ph = .idle)
    (hh : s.host = .offer w :: rest ∨ s.host = .glance w :: rest) (hd : decodeRequest w = .ok i) :
    ∃ u, exec i s = .next u ∧ AskedOf s i u ∧ step s = .next (endTick s u) := by
  have hs : sessionCalls s = s := sessionCalls_of_word s w rest hh
  have hq : requestAt s = some i := requestAt_of_word hi hh hd
  obtain ⟨u, hu⟩ := exec_next i s
  refine ⟨u, hu, askedOf_of_exec hq hu, ?_⟩
  rw [step_of_request s i hr (hs.symm ▸ hq), hs, hu]
  rfl

/-- Settles O5: the request's meaning keeps `NOW` and the inputs, and reading the port consumes the word. -/
theorem stepRunsTheOfferedRequest : Obligations.StepRunsTheOfferedRequest := by
  intro s w rest i hr hi hh hd
  obtain ⟨u, hu, hasked, hstep⟩ := step_of_word hr hi hh hd
  obtain ⟨hnow, hhost, henv⟩ := hasked.inputsKept
  have hnext : hostNext true s.host = rest := by rcases hh with hh | hh <;> rw [hh] <;> rfl
  exact ⟨u, hu, by rw [hstep, endTick_of_idle s u hi, hnow, hhost, henv, hnext]⟩

/-- Settles O13: no call begins, nothing is fetched, and phase `IDLE` does nothing. -/
theorem idleTickWithoutRequest : Obligations.IdleTickWithoutRequest := by
  intro s hr hi hh
  have hs : sessionCalls s = s := by
    rcases hh with hh | ⟨rest, hh⟩ <;> cases s <;> simp_all [sessionCalls, beginCalls]
  have hv : s.reqValid = false := by
    rcases hh with hh | ⟨rest, hh⟩ <;> rw [State.reqValid, hh]
  have hq : requestAt (sessionCalls s) = none := by simp [hs, requestAt, hv]
  have ht : idleTick s = s := by simp [idleTick, hv]
  have hnext : hostNext true s.host = s.host.tail := by
    rcases hh with hh | ⟨rest, hh⟩ <;> rw [hh] <;> rfl
  rw [step_of_no_request s hr hi hq, hs, ht, endTick_of_idle s s hi, latched_of_steady s s (.inr rfl), hnext]

/-! ### The transfer in the serializer -/

theorem isRequest_of_decodeBusByte {c : Cfg} {b : Byte} {i : Instr} (h : decodeBusByte c b = .ok i) : i.isRequest = false := by
  unfold decodeBusByte at h
  split_ifs at h <;> cases h <;> rfl

theorem isRequest_of_decodeBusNibble {c : Cfg} {pos : Fin 4} {n : Nibble} {i : Instr} (h : decodeBusNibble c pos n = .ok i) :
    i.isRequest = false := by
  unfold decodeBusNibble at h
  split_ifs at h
  cases h
  match pos with
  | 0 | 1 | 2 | 3 => rfl

theorem isRequest_of_transferAt {s : State} {i : Instr} (h : transferAt s = some i) : i.isRequest = false := by
  unfold transferAt at h
  split_ifs at h
  · exact isRequest_of_decodeBusNibble (accepted_some h)
  · exact isRequest_of_decodeBusByte (accepted_some h)

/-- The tick of a fetched bus row: its meaning, and the end of the tick. -/
theorem step_of_transfer {s : State} {i : Instr} (hr : s.rstIn = false) (h : transferAt s = some i) :
    ∃ u, exec i s = .next u ∧ step s = .next (endTick s u) := by
  have hp : s.ph = .rsw := ph_of_transferAt s i h
  refine ⟨rswTick s, exec_of_transferAt s i h, ?_⟩
  rw [step_of_busy s hr (by simp [hp])]
  simp [engineTick, hp]

/-- Settles O6. -/
theorem stepRunsTheBusTransfer : Obligations.StepRunsTheBusTransfer :=
  fun _ _ hr h => ⟨isRequest_of_transferAt h, step_of_transfer hr h⟩

/-! ### Placing a word -/

theorem rstIn_placeEncoded (e : Encoded) (s : State) : (placeEncoded e s).rstIn = false := by
  have henv : (placeEncoded e s).env = withoutRst s.env := by cases e <;> rfl
  rw [State.rstIn, henv]
  cases s.env <;> rfl

theorem transferAt_placeEncoded_busByte (b : Byte) (s : State) :
    transferAt (placeEncoded (.busByte b) s) = accepted (decodeBusByte s.params b) := by
  simp [transferAt, placeEncoded]

theorem position_ofNat (pos : Fin 4) : position (BitVec.ofNat 3 pos.val) = pos ∧ BitVec.ofNat 3 pos.val < 4#3 := by
  revert pos
  decide

theorem hi_lo_handshake (n : Nibble) : hi (n ++ 0x0#4) = n ∧ lo (n ++ 0x0#4) = 0x0#4 := by
  revert n
  decide

theorem transferAt_placeEncoded_busNibble (pos : Fin 4) (n : Nibble) (s : State) :
    transferAt (placeEncoded (.busNibble pos n) s) = accepted (decodeBusNibble s.params pos n) := by
  obtain ⟨hpos, hlt⟩ := position_ofNat pos
  obtain ⟨hhi, hlo⟩ := hi_lo_handshake n
  simp [transferAt, placeEncoded, hpos, hlt, hhi, hlo]

/-- An encoded instruction, placed, is what the next tick runs, with whatever parameters it is decoded (log 11). -/
theorem step_placeEncoded {e : Encoded} {s : State} {i : Instr} (h : decode s.params e = .ok i) :
    ∃ u, exec i (placeEncoded e s) = .next u ∧ step (placeEncoded e s) = .next (endTick (placeEncoded e s) u) := by
  have hr : (placeEncoded e s).rstIn = false := rstIn_placeEncoded e s
  cases e with
  | request w =>
    obtain ⟨u, hu, -, hstep⟩ := step_of_word hr rfl (.inl rfl) h
    exact ⟨u, hu, hstep⟩
  | busByte b => exact step_of_transfer hr ((transferAt_placeEncoded_busByte b s).trans (congrArg accepted h))
  | busNibble pos n => exact step_of_transfer hr ((transferAt_placeEncoded_busNibble pos n s).trans (congrArg accepted h))

/-- Settles O7: a table row's word is placed as it is spelled, and each spelling is fetched where it is placed. -/
theorem stepRunsThePlacedWord : Obligations.StepRunsThePlacedWord := by
  intro s nbits w i hp h
  unfold decodeTableWord at h
  cases he : tableEncoded nbits w with
  | none => simp [he] at h
  | some e =>
    have hplace : s.withFetchWord nbits w = placeEncoded e s := by simp [State.withFetchWord, placeTableWord, he]
    rw [hplace]
    rw [he, ← hp] at h
    exact step_placeEncoded (accepted_some h)

/-! ### A busy engine does not look at the port -/

/-- The state with another host. -/
def State.withHost (h : List HostAct) (s : State) : State := { s with host := h }

/-- `f` neither reads nor writes the host's list. -/
def IgnoresHost (f : State → State) : Prop := ∀ s h, f (s.withHost h) = (f s).withHost h

theorem pinWrite_ignoresHost (l : Line) (v : Bool) : IgnoresHost (pinWrite l v) := by
  intro s h
  rw [pinWrite_eq, pinWrite_eq]
  cases l <;> rfl

theorem emit_ignoresHost (e : Event) : IgnoresHost (emit e) := fun _ _ => rfl

theorem setEnable_ignoresHost (b : Bool) : IgnoresHost (setEnable b) :=
  fun s h => pinWrite_ignoresHost .en b (emit (.en b) s) h

theorem setRegisterSelect_ignoresHost (b : Bool) : IgnoresHost (setRegisterSelect b) :=
  fun s h => pinWrite_ignoresHost .rs b (emit (.rs b) s) h

theorem setDataNibble_ignoresHost (n : Nibble) : IgnoresHost (setDataNibble n) := by
  intro s h
  simp only [setDataNibble, emit_ignoresHost _ s h, pinWrite_ignoresHost _ _ _ h]

theorem waitStep_ignoresHost {leave : State → State} (hl : IgnoresHost leave) : IgnoresHost (waitStep leave) := by
  intro s h
  by_cases hd : s.dly = 0
  · rw [waitStep_leaving leave s hd, waitStep_leaving leave (s.withHost h) hd, hl]
  · rw [waitStep_counting leave s hd, waitStep_counting leave (s.withHost h) hd]
    rfl

theorem endOfByte_ignoresHost : IgnoresHost endOfByte := by
  intro s h
  have hopc : (s.withHost h).opc = s.opc := rfl
  unfold endOfByte
  rw [hopc]
  split <;> rfl

theorem exitGap_ignoresHost : IgnoresHost exitGap := by
  intro s h
  have hseq : (s.withHost h).seq = s.seq := rfl
  have hnib : (s.withHost h).nib = s.nib := rfl
  unfold exitGap
  rw [hseq, hnib]
  split_ifs
  · rfl
  · rfl
  · rfl
  · exact endOfByte_ignoresHost s h

/-- The engine's own step in a busy phase (R33, R249). -/
theorem engineTick_withHost {s : State} (hb : s.ph ≠ .idle) (h : List HostAct) :
    engineTick (s.withHost h) = (engineTick s).withHost h := by
  have hph : (s.withHost h).ph = s.ph := rfl
  unfold engineTick
  rw [hph]
  cases hp : s.ph with
  | idle => exact absurd hp hb
  | pre | pw | long => exact waitStep_ignoresHost (fun _ _ => rfl) s h
  | gap => exact waitStep_ignoresHost exitGap_ignoresHost s h
  | rsw => exact congrArg (fun t : State => { t with ph := Phase.dw }) (setRegisterSelect_ignoresHost s.rsq s h)
  | dw => exact congrArg (fun t : State => { t with ph := Phase.enh }) (setDataNibble_ignoresHost s.cur s h)
  | enh => exact congrArg (enterWait .pw .pw) (setEnable_ignoresHost true s h)
  | enl => exact congrArg (enterWait (gapKind s.seq) .gap) (setEnable_ignoresHost false s h)

/-- A request run in a busy phase is the phase's own tick (log 12). -/
theorem whenIdle_of_busy (examine : State → State) (s : State) (h : s.ph ≠ .idle) : whenIdle examine s = engineTick s :=
  if_neg h

theorem exec_request_of_busy {s : State} {i : Instr} (hi : i.isRequest = true) (hb : s.ph ≠ .idle) :
    exec i s = .next (engineTick s) := by
  cases i with
  | init | cmd | data | clear | dispctl => exact congrArg _ (whenIdle_of_busy _ s hb)
  | _ => cases hi

/-- Settles O14: the engine's own step commutes with a change of the host's list. -/
theorem busyEngineIgnoresThePort : Obligations.BusyEngineIgnoresThePort := by
  refine ⟨fun s i hi hb => exec_request_of_busy hi hb, fun s t h hr hb hstep => ?_⟩
  rw [step_of_busy s hr hb] at hstep
  cases hstep
  have hother := step_of_busy (s.withHost h) hr hb
  rw [engineTick_withHost hb h, endTick_of_busy (s.withHost h) _ hb] at hother
  rw [endTick_of_busy s _ hb]
  exact hother

end Sys2Proof.Machine
end

section
/-! PROOFS. The wait phases tick by tick and as a whole (R35, R36, R117, R119, R131, R166), and the layout of the outputs (R33, R37, R40). -/

namespace Sys2Proof.Machine

/-! ### The wait phases -/

theorem waits_iff (p : Phase) : p.waits = true ↔ p = .pre ∨ p = .pw ∨ p = .gap ∨ p = .long := by
  cases p <;> simp [Phase.waits]

/-- The tick in which a wait phase leaves for `p`: only `PH` moves, and the inputs. -/
theorem step_of_waitEnds {s : State} {p : Phase} (hr : s.rstIn = false) (hb : s.ph ≠ .idle)
    (ht : engineTick s = { s with ph := p }) :
    step s = .next { s with ph := p, now := s.now + 1, host := hostNext false s.host, env := s.env.tail } :=
  step_of_steady s _ hr hb ht (.inr rfl)

/-- Settles O23. -/
theorem waitPhasesCountAndLeave : Obligations.WaitPhasesCountAndLeave := by
  intro s hr
  refine ⟨fun hw hd => step_of_counting s hr ((waits_iff s.ph).mpr hw) hd, fun hd hp => ?_, fun hd hp => ?_, fun hd hp => ?_⟩
  · exact step_of_waitEnds hr (by simp [hp]) (by simp [engineTick, hp, preTick, waitStep_leaving, hd])
  · exact step_of_waitEnds hr (by simp [hp]) (by simp [engineTick, hp, pwTick, waitStep_leaving, hd])
  · exact step_of_waitEnds hr (by simp [hp]) (by simp [engineTick, hp, longTick, waitStep_leaving, hd])

/-- `s` after `j` ticks of a wait phase that counts, with `h` left to the host (R35). -/
def State.counted (s : State) (j : Nat) (h : List HostAct) : State :=
  { s with dly := s.dly - j, now := s.now + j, host := h, env := s.env.drop j }

theorem rstIn_counted {s : State} (hn : s.noReset = true) (j : Nat) (h : List HostAct) : (s.counted j h).rstIn = false :=
  rstIn_of_noReset (noReset_of_env_drop j hn rfl)

theorem runTicks_of_counting {s : State} (hn : s.noReset = true) (hw : s.ph.waits = true) (j : Nat) (hj : j ≤ s.dly) :
    ∃ h, runTicks j s = .next (s.counted j h) := by
  induction j with
  | zero => exact ⟨s.host, rfl⟩
  | succ j ih =>
    obtain ⟨h, hrun⟩ := ih (Nat.le_of_succ_le hj)
    have hstep := step_of_counting (s.counted j h) (rstIn_counted hn j h) hw (Nat.sub_ne_zero_of_lt hj)
    refine ⟨hostNext false h, ?_⟩
    rw [runTicks_add j 1 s _ hrun, runTicks_one _ _ hstep]
    simp only [State.counted, List.tail_drop, Nat.sub_sub, Nat.add_assoc]

/-- A wait phase at zero is left. -/
theorem BusyOf.ph_ne_of_dly_zero {s u : State} (h : BusyOf s u) (hd : s.dly = 0) : u.ph ≠ s.ph := by
  cases h with
  | count _ hne => exact absurd hd hne
  | _ => simp [*]

/-- Settles O25, by induction on the ticks counted so far. -/
theorem waitPhaseLastsOneMoreThanItsDelay : Obligations.WaitPhaseLastsOneMoreThanItsDelay := by
  intro s hn hw
  have hcount := runTicks_of_counting hn ((waits_iff s.ph).mpr hw)
  obtain ⟨h, hrun⟩ := hcount s.dly le_rfl
  have hzero : (s.counted s.dly h).dly = 0 := Nat.sub_self s.dly
  have hb : (s.counted s.dly h).ph ≠ .idle := by
    intro (hi : s.ph = .idle)
    simp [hi] at hw
  have hstep := step_of_busy _ (rstIn_counted hn s.dly h) hb
  have hlast := (runTicks_add s.dly 1 s _ hrun).trans (runTicks_one _ _ hstep)
  exact ⟨hcount, _, hlast, (busyOf_engineTick hb).ph_ne_of_dly_zero hzero⟩

/-! ### The outputs -/

/-- Five flags side by side, bit by bit. -/
theorem getLsbD_of_five_flags (a b c d e : Bool) :
    let w : BitVec 5 := BitVec.ofBool a ++ BitVec.ofBool b ++ BitVec.ofBool c ++ BitVec.ofBool d ++ BitVec.ofBool e
    w.getLsbD 0 = e ∧ w.getLsbD 1 = d ∧ w.getLsbD 2 = c ∧ w.getLsbD 3 = b ∧ w.getLsbD 4 = a := by
  revert a b c d e
  decide

/-- Two flags side by side, bit by bit. -/
theorem getLsbD_of_two_flags (a b : Bool) :
    let w : BitVec 2 := BitVec.ofBool a ++ BitVec.ofBool b
    w.getLsbD 1 = a ∧ w.getLsbD 0 = b := by
  revert a b
  decide

/-- Settles O51. -/
theorem statusAndConfigurationLayout : Obligations.StatusAndConfigurationLayout := fun s =>
  ⟨beq_iff_eq, bne_iff_ne, getLsbD_of_five_flags s.illReq s.seqErr s.lineErr s.inited s.busy, getLsbD_of_two_flags s.cfgN s.cfgF⟩

end Sys2Proof.Machine
end

section
/-! PROOFS. The nibbles: which bits of the byte the data lines take in phase `DW` (R61, R114), and the parity of the strobes (R64, R47,
R120): where no write can fail, `EN` falls exactly in phase `ENL`, and there the sequencer's parity turns over. -/

namespace Sys2Proof.Machine

/-! ### The bits on the data lines -/

/-- Bit `i` of the current nibble is bit `i` of the low half of the byte, or bit `4 + i` while the high half is sent (R23, R61). -/
theorem cur_getLsbD (s : State) {i : Nat} (h : i < 4) :
    s.cur.getLsbD i = if s.nib then s.byte.getLsbD i else s.byte.getLsbD (4 + i) := by
  unfold State.cur lo hi
  cases s.nib <;> simp [h]

/-- Settles O19: no write of the tick fails, so each line takes its bit of the current nibble. -/
theorem dataPhaseMapsBitsToLines : Obligations.DataPhaseMapsBitsToLines := by
  intro s hr hp hw
  have hdrive := setDataNibble_of_succeeds s.cur s fun l => writeFails_of_writesSucceed s l hw
  simp only [cur_getLsbD s (by decide : 0 < 4), cur_getLsbD s (by decide : 1 < 4), cur_getLsbD s (by decide : 2 < 4),
    cur_getLsbD s (by decide : 3 < 4)] at hdrive
  have htick : engineTick s = { setDataNibble s.cur s with ph := .enh } := by rw [engineTick, hp, dwTick]
  rw [hdrive] at htick
  exact step_of_steady s _ hr (by simp [hp]) htick (.inr rfl)

/-! ### The strobes -/

theorem writeFails_of_cannotFail {s : State} (hw : s.params.hasWfail = false) (l : Line) : s.writeFails l = false := by
  simp [State.writeFails, hw]

theorem ne_enl_of_waits {p : Phase} (h : p.waits = true) : p ≠ .enl := by
  rintro rfl
  cases h

/-- The next place in the operation has the other parity. -/
theorem succ_getLsbD_zero (q : BitVec 3) : (q + 1#3).getLsbD 0 = !q.getLsbD 0 := by
  revert q
  decide

/-- The parity the sequencer says turns over in phase `ENL` and in no other (R25, R120). -/
theorem BusyOf.oddStrobes {s u : State} (hs : s.Sequenced) (h : BusyOf s u) :
    u.oddStrobes = (s.oddStrobes ^^ decide (s.ph = .enl)) := by
  cases h with
  | count hw _ =>
    rw [decide_eq_false (ne_enl_of_waits hw), Bool.xor_false]
    rfl
  | preEnds hp _ =>
    obtain ⟨-, -, -, -, -, hpre, -⟩ := hs
    simp [State.oddStrobes, hp, (hpre hp).2]
  | select hp | drive hp | rise hp | pwEnds hp | fall hp => simp [State.oddStrobes, hp]
  | nextHandshake hp _ hq =>
    obtain ⟨hlt, hlt', -⟩ := succ_lt_four_of_lt_three hq
    simp only [State.oddStrobes, hp, hlt, hlt', if_true, succ_getLsbD_zero]
    simp
  | functionSet hp _ hq => simp [State.oddStrobes, hp, hq]
  | lowHalf hp _ hq hn | longBegins hp _ hq hn | initEnds hp _ hq hn | byteEnds hp _ hq hn =>
    simp [State.oddStrobes, hp, hn, BitVec.not_lt.mpr hq]
  | longEnds hp _ => simp [State.oddStrobes, hp]

/-- A request begins with no strobe made. -/
theorem AskedOf.oddStrobes {s u : State} {i : Instr} (hi : s.ph = .idle) (h : AskedOf s i u) : u.oddStrobes = s.oddStrobes := by
  cases h with
  | init | cmd | data | clear | dispctl => simp [State.oddStrobes, acceptInit, acceptByte, hi]
  | dropped => rfl

theorem MoveOf.oddStrobes {s u : State} (hs : s.Sequenced) (h : MoveOf s u) :
    u.oddStrobes = (s.oddStrobes ^^ decide (s.ph = .enl)) := by
  cases h with
  | busy _ h => exact h.oddStrobes hs
  | rest hi | illegal hi => simp [State.oddStrobes, hi]
  | asked hi h => simp [h.oddStrobes hi, hi]

/-- Where no write can fail, `EN` falls exactly in phase `ENL` (R118, R122(d)). -/
theorem MoveOf.en_falls_iff {s u : State} (hw : s.params.hasWfail = false) (he : s.en = (s.ph == .pw || s.ph == .enl))
    (h : MoveOf s u) : (s.en = true ∧ u.en = false) ↔ s.ph = .enl := by
  cases h with
  | busy _ h =>
    cases h with
    | rise hp x hx => simp [he, hp]
    | fall hp x hx => simp [he, hp, hx (writeFails_of_cannotFail hw .en)]
    | count hc _ => simp [ne_enl_of_waits hc]
    | _ => simp [*]
  | rest hi | illegal hi => simp [hi]
  | asked hi h =>
    have hen : u.en = s.en := by cases h <;> rfl
    simp [hi, hen]

/-- One more strobe turns the parity over. -/
theorem succ_mod_two_of_parity {n : Nat} {odd : Bool} (h : n % 2 = if odd then 1 else 0) :
    (n + 1) % 2 = if !odd then 1 else 0 := by
  cases odd <;> simp at h ⊢ <;> omega

theorem oddStrobes_endTick (s u : State) : (endTick s u).oddStrobes = u.oddStrobes := rfl

/-- A tick without reset latches a nibble exactly when the sequencer's parity turns over (R47). -/
theorem MoveOf.paired {s u : State} (hseq : s.Sequenced) (hen : s.EnableFollows) (hs : s.Paired) (h : MoveOf s u) :
    (endTick s u).Paired := by
  intro hwu
  obtain ⟨hpar, -, hlat, -⟩ := h.ghostsKept
  have hw : s.params.hasWfail = false := by rw [← hpar]; exact hwu
  rw [endTick_lat, latched_eq hlat, oddStrobes_endTick, h.oddStrobes hseq]
  simp only [h.en_falls_iff hw (hen hw).1]
  by_cases hp : s.ph = .enl
  · simpa [hp] using succ_mod_two_of_parity (hs hw)
  · simpa [hp] using hs hw

/-- Settles O39: the power cycle empties `LAT`, and each move of the engine keeps the pairing; in `IDLE` the parity is even. -/
theorem stepKeepsNibblesPaired : Obligations.StepKeepsNibblesPaired := by
  refine ⟨fun s t hseq hen hs h => ?_, fun s hs hw hi => by simpa [State.oddStrobes, hi] using hs hw⟩
  cases hr : s.rstIn with
  | true =>
    rw [eq_powerCycle_of_step hr h]
    exact fun _ => rfl
  | false =>
    obtain ⟨host, disp, u, hm, rfl⟩ := moveOf_of_step hr h
    exact hm.paired hseq hen hs

end Sys2Proof.Machine
end

section
/-! PROOFS. The encodings (R80 to R97). Request words: the decoder read as the five rows of the opcode table (`RequestRow`), its inverse on
the words that `encode` gives, and how many words each row has. Bus rows: the bytes and nibbles read back from what the engine sends. -/

namespace Sys2Proof

open Machine

/-! ### The two fields of a word -/

@[simp] theorem opField_append (op : BitVec 4) (a : Byte) : opField (op ++ a) = op := BitVec.extractLsb'_append_eq_left

@[simp] theorem argField_append (op : BitVec 4) (a : Byte) : argField (op ++ a) = a := BitVec.extractLsb'_append_eq_right

theorem opField_append_argField (w : ReqWord) : opField w ++ argField w = w := by
  rw [opField, argField, BitVec.extractLsb'_append_extractLsb'_eq_extractLsb' (by decide)]
  exact BitVec.extractLsb'_eq_self

theorem argField_eq_setWidth (w : ReqWord) : argField w = w.setWidth 8 :=
  (BitVec.setWidth_eq_extractLsb' (by decide)).symm

/-- A word fits a row whose mask takes the whole of `op` exactly when `op` is the row's and `arg` fits the row's part of the mask (R93). -/
theorem and_mask_eq_iff (w : ReqWord) (op : BitVec 4) (mask pattern : Byte) :
    w &&& (0xF#4 ++ mask) = op ++ pattern ↔ opField w = op ∧ argField w &&& mask = pattern := by
  have hw : w &&& (0xF#4 ++ mask) = opField w ++ (argField w &&& mask) := by
    conv_lhs => rw [← opField_append_argField w, BitVec.and_append]
    rw [show (0xF#4) = BitVec.allOnes 4 from rfl, BitVec.and_allOnes]
  rw [hw]
  constructor
  · intro h
    exact ⟨by simpa using congrArg opField h, by simpa using congrArg argField h⟩
  · rintro ⟨rfl, rfl⟩
    rfl

/-! ### The rows of the table -/

/-- The row of a legal word, with its operands (R82, R84). -/
inductive RequestRow (w : ReqWord) : Instr → Prop
  | init (ho : opField w = 0x1#4) (ha : argField w &&& 0xF3#8 = 0x00#8) :
      RequestRow w (.init ((argField w).getLsbD 3) ((argField w).getLsbD 2))
  | cmd (ho : opField w = 0x2#4) : RequestRow w (.cmd (argField w))
  | data (ho : opField w = 0x3#4) : RequestRow w (.data (argField w))
  | clear (ho : opField w = 0x4#4) (ha : argField w = 0x00#8) : RequestRow w .clear
  | dispctl (ho : opField w = 0x5#4) (ha : argField w &&& 0xF8#8 = 0x00#8) :
      RequestRow w (.dispctl ((argField w).getLsbD 2) ((argField w).getLsbD 1) ((argField w).getLsbD 0))

/-- The reserved bits of `INIT`'s argument under one mask (R82). -/
theorem initReserved_iff (a : Byte) : (a.extractLsb' 4 4 = 0x0#4 ∧ a.extractLsb' 0 2 = 0#2) ↔ a &&& 0xF3#8 = 0x00#8 := by
  revert a
  decide

/-- The reserved bits of `DISPCTL`'s argument under one mask (R82). -/
theorem dispctlReserved_iff (a : Byte) : a.extractLsb' 3 5 = 0#5 ↔ a &&& 0xF8#8 = 0x00#8 := by
  revert a
  decide

/-- `decode` of R84 is the table of R93. -/
theorem decodeRequest_eq_ok_iff {w : ReqWord} {i : Instr} : decodeRequest w = .ok i ↔ RequestRow w i := by
  constructor
  · intro h
    unfold decodeRequest at h
    simp only [initReserved_iff, dispctlReserved_iff] at h
    split_ifs at h <;> cases h
    · exact .init ‹_› ‹_›
    · exact .cmd ‹_›
    · exact .data ‹_›
    · exact .clear ‹_› ‹_›
    · exact .dispctl ‹_› ‹_›
  · rintro (⟨ho, ha⟩ | ho | ho | ⟨ho, ha⟩ | ⟨ho, ha⟩)
    · simp [decodeRequest, initReserved_iff, ho, ha]
    · simp [decodeRequest, ho]
    · simp [decodeRequest, ho]
    · simp [decodeRequest, ho, ha]
    · simp [decodeRequest, dispctlReserved_iff, ho, ha]

/-! ### The bits that are ORed into a base byte -/

/-- Where the base is zero under a mask, the bits of the mask are those of the arguments. -/
theorem getLsbD_or_of_and_eq_zero {b x m : Byte} (hb : b &&& m = 0x00#8) {i : Nat} (hi : m.getLsbD i = true) :
    (b ||| x).getLsbD i = x.getLsbD i := by
  have hbi : b.getLsbD i = false := by simpa [hi] using congrArg (·.getLsbD i) hb
  rw [BitVec.getLsbD_or, hbi, Bool.false_or]

/-- Where base and arguments keep to opposite sides of a mask, the base is read back under the mask. -/
theorem or_and_eq_base {b x m : Byte} (hb : b &&& ~~~m = 0x00#8) (hx : x &&& m = 0x00#8) : (b ||| x) &&& m = b := by
  have hbm : b &&& m = b := by
    calc b &&& m = (b &&& m) ||| (b &&& ~~~m) := by rw [hb, BitVec.or_zero]
      _ = b := by rw [← BitVec.and_or_distrib_left, BitVec.or_not_self, BitVec.and_allOnes]
  rw [BitVec.and_or_distrib_right, hbm, hx, BitVec.or_zero]

/-- The function-set byte gives back its arguments and its base (R90, R11). -/
theorem functionSetByte_fields {c : Cfg} (h : c.funcsetBase &&& 0x0C#8 = 0x00#8) (n f : Bool) :
    (functionSetByte c n f).getLsbD 3 = n ∧ (functionSetByte c n f).getLsbD 2 = f ∧
      functionSetByte c n f &&& 0xF3#8 = c.funcsetBase := by
  rw [functionSetByte, BitVec.or_assoc]
  refine ⟨(getLsbD_or_of_and_eq_zero h rfl).trans ?_, (getLsbD_or_of_and_eq_zero h rfl).trans ?_, or_and_eq_base h ?_⟩
  all_goals revert n f; decide

/-- The display-control byte gives back its flags and its base (R89, R11). -/
theorem displayControlByte_fields {c : Cfg} (h : c.dispctlBase &&& 0x07#8 = 0x00#8) (d cur k : Bool) :
    (displayControlByte c d cur k).getLsbD 2 = d ∧ (displayControlByte c d cur k).getLsbD 1 = cur ∧
      (displayControlByte c d cur k).getLsbD 0 = k ∧ displayControlByte c d cur k &&& 0xF8#8 = c.dispctlBase := by
  rw [displayControlByte, BitVec.or_assoc, BitVec.or_assoc]
  refine ⟨(getLsbD_or_of_and_eq_zero h rfl).trans ?_, (getLsbD_or_of_and_eq_zero h rfl).trans ?_,
    (getLsbD_or_of_and_eq_zero h rfl).trans ?_, or_and_eq_base h ?_⟩
  all_goals revert d cur k; decide

/-! ### Encoding -/

/-- Operation and argument side by side are the sum of R85. -/
theorem append_eq_or (op : BitVec 4) (b : Byte) : op ++ b = (op ++ 0x00#8) ||| b.setWidth 12 := by
  have hb : b.setWidth 12 = 0x0#4 ++ b := BitVec.setWidth_eq_append (by decide)
  rw [hb, BitVec.or_append, BitVec.or_zero, BitVec.zero_or]

/-- Parameters with both base bytes zero: a request's argument byte carries its flags where the bus byte does (R82). -/
def zeroBases : Cfg := { Cfg.default with dispctlBase := 0x00#8, funcsetBase := 0x00#8 }

theorem encodeRequest_init (n f : Bool) : encodeRequest (.init n f) = 0x1#4 ++ functionSetByte zeroBases n f := by
  simp [encodeRequest, functionSetByte, zeroBases]

theorem encodeRequest_dispctl (d c k : Bool) :
    encodeRequest (.dispctl d c k) = 0x5#4 ++ displayControlByte zeroBases d c k := by
  simp [encodeRequest, displayControlByte, zeroBases]

/-- `encode` puts a request in its own row (R85). -/
theorem requestRow_encodeRequest {i : Instr} (h : i.isRequest = true) : RequestRow (encodeRequest i) i := by
  match i, h with
  | .init n f, _ =>
    obtain ⟨hn, hf, hbase⟩ := functionSetByte_fields (c := zeroBases) (by decide) n f
    have hrow := RequestRow.init (opField_append 0x1#4 (functionSetByte zeroBases n f)) (by rwa [argField_append])
    rwa [argField_append, hn, hf, ← encodeRequest_init] at hrow
  | .cmd b, _ => simpa only [encodeRequest, argField_append] using RequestRow.cmd (opField_append 0x2#4 b)
  | .data b, _ => simpa only [encodeRequest, argField_append] using RequestRow.data (opField_append 0x3#4 b)
  | .clear, _ => exact .clear (by decide) (by decide)
  | .dispctl d c k, _ =>
    obtain ⟨hd, hc, hk, hbase⟩ := displayControlByte_fields (c := zeroBases) (by decide) d c k
    have hrow := RequestRow.dispctl (opField_append 0x5#4 (displayControlByte zeroBases d c k)) (by rwa [argField_append])
    rwa [argField_append, hd, hc, hk, ← encodeRequest_dispctl] at hrow

theorem decodeRequest_encodeRequest {i : Instr} (h : i.isRequest = true) : decodeRequest (encodeRequest i) = .ok i :=
  decodeRequest_eq_ok_iff.mpr (requestRow_encodeRequest h)

/-- A row and its operands fix the word (R85). -/
theorem RequestRow.encodeRequest_eq {w : ReqWord} {i : Instr} (h : RequestRow w i) : encodeRequest i = w := by
  have hw := opField_append_argField w
  cases h with
  | init ho ha => rwa [encodeRequest_init, functionSetByte_of_match zeroBases _ ha, ← ho]
  | cmd ho => rwa [ho] at hw
  | data ho => rwa [ho] at hw
  | clear ho ha => rwa [ho, ha] at hw
  | dispctl ho ha => rwa [encodeRequest_dispctl, displayControlByte_of_match zeroBases _ ha, ← ho]

/-- Settles O1: the two halves of a word are the sum of R85, and each row is read back from its word and gives it back. -/
theorem requestEncodingIsABijection : Obligations.RequestEncodingIsABijection := by
  refine ⟨by decide, append_eq_or 0x2#4, append_eq_or 0x3#4, rfl, by decide, fun i => decodeRequest_encodeRequest, fun w i h => ?_⟩
  exact ⟨isRequest_of_decodeRequest h, (decodeRequest_eq_ok_iff.mp h).encodeRequest_eq⟩

/-! ### How many words are legal -/

/-- The arguments of the five requests, row by row (R83). -/
abbrev RequestArgs := (Bool × Bool) ⊕ Byte ⊕ Byte ⊕ Unit ⊕ (Bool × Bool × Bool)

/-- The request with given arguments (R83). -/
def requestOf : RequestArgs → Instr
  | .inl (n, f) => .init n f
  | .inr (.inl b) => .cmd b
  | .inr (.inr (.inl b)) => .data b
  | .inr (.inr (.inr (.inl ()))) => .clear
  | .inr (.inr (.inr (.inr (d, c, k)))) => .dispctl d c k

theorem requestOf_injective : Function.Injective requestOf := by
  rintro (⟨n, f⟩ | b | b | ⟨⟩ | ⟨d, c, k⟩) (⟨n', f'⟩ | b' | b' | ⟨⟩ | ⟨d', c', k'⟩) h <;> cases h <;> rfl

theorem isRequest_requestOf (a : RequestArgs) : (requestOf a).isRequest = true := by
  obtain ⟨n, f⟩ | b | b | ⟨⟩ | ⟨d, c, k⟩ := a <;> rfl

theorem exists_requestOf {i : Instr} (h : i.isRequest = true) : ∃ a, requestOf a = i := by
  match i, h with
  | .init n f, _ => exact ⟨.inl (n, f), rfl⟩
  | .cmd b, _ => exact ⟨.inr (.inl b), rfl⟩
  | .data b, _ => exact ⟨.inr (.inr (.inl b)), rfl⟩
  | .clear, _ => exact ⟨.inr (.inr (.inr (.inl ()))), rfl⟩
  | .dispctl d c k, _ => exact ⟨.inr (.inr (.inr (.inr (d, c, k)))), rfl⟩

theorem card_byte : Fintype.card Byte = 256 := by
  rw [← FinEnum.card_eq_fintypeCard, FinEnum.card_bitVec]
  rfl

theorem countP_range_eq_card (p : Nat → Bool) (n : Nat) :
    (List.range n).countP p = ((Finset.range n).filter (fun k => p k = true)).card := by
  simpa [Nat.count] using Nat.count_eq_card_filter_range (fun k => p k = true) n

/-- `encode` is a bijection from the arguments of some rows to the words that decode to these rows, so it counts them. -/
theorem countP_words {α : Type} [Fintype α] {p : Nat → Bool} {n : Nat} (args : α → RequestArgs) (hargs : Function.Injective args)
    (hp : ∀ k, p k = true ↔ ∃ a, decodeRequest (BitVec.ofNat 12 k) = .ok (requestOf (args a))) (hn : Fintype.card α = n) :
    (List.range 4096).countP p = n := by
  have hdecode (a : α) : decodeRequest (encodeRequest (requestOf (args a))) = .ok (requestOf (args a)) :=
    decodeRequest_encodeRequest (isRequest_requestOf (args a))
  have hword : Function.Injective fun a => (encodeRequest (requestOf (args a))).toNat := by
    intro a b h
    have hd := hdecode a
    rw [BitVec.eq_of_toNat_eq h, hdecode b] at hd
    exact hargs (requestOf_injective (Except.ok.inj hd).symm)
  have himage : (Finset.range 4096).filter (fun k => p k = true) = Finset.univ.map ⟨_, hword⟩ := by
    ext k
    simp only [Finset.mem_filter, Finset.mem_range, hp, Finset.mem_map, Finset.mem_univ, true_and, Function.Embedding.coeFn_mk]
    constructor
    · rintro ⟨hk, a, ha⟩
      refine ⟨a, ?_⟩
      rw [(decodeRequest_eq_ok_iff.mp ha).encodeRequest_eq, BitVec.toNat_ofNat, Nat.mod_eq_of_lt hk]
    · rintro ⟨a, rfl⟩
      refine ⟨(encodeRequest (requestOf (args a))).isLt, a, ?_⟩
      rw [BitVec.ofNat_toNat, BitVec.setWidth_eq, hdecode a]
  rw [countP_range_eq_card, himage, Finset.card_map, Finset.card_univ, hn]

/-- A word is legal exactly when it decodes to some request (R84). -/
theorem isSome_accepted_decodeRequest_iff (w : ReqWord) :
    (accepted (decodeRequest w)).isSome = true ↔ ∃ a, decodeRequest w = .ok (requestOf a) := by
  cases hd : decodeRequest w with
  | error why => simp [accepted]
  | ok i =>
    obtain ⟨a, rfl⟩ := exists_requestOf (isRequest_of_decodeRequest hd)
    simp [accepted]

/-! ### Which words are legal -/

/-- A word outside the five patterns is illegal (R84, R94). -/
theorem decodeRequest_error_of_no_pattern {w : ReqWord} (hi : w &&& 0xFF3#12 ≠ 0x100#12) (hc : w &&& 0xF00#12 ≠ 0x200#12)
    (hd : w &&& 0xF00#12 ≠ 0x300#12) (hx : w ≠ 0x400#12) (hp : w &&& 0xFF8#12 ≠ 0x500#12) :
    ∃ why, decodeRequest w = .error why := by
  cases h : decodeRequest w with
  | error why => exact ⟨why, rfl⟩
  | ok i =>
    exfalso
    cases decodeRequest_eq_ok_iff.mp h with
    | init ho ha => exact hi ((and_mask_eq_iff w _ 0xF3#8 _).mpr ⟨ho, ha⟩)
    | cmd ho => exact hc ((and_mask_eq_iff w _ 0x00#8 _).mpr ⟨ho, BitVec.and_zero⟩)
    | data ho => exact hd ((and_mask_eq_iff w _ 0x00#8 _).mpr ⟨ho, BitVec.and_zero⟩)
    | clear ho ha => exact hx (by rw [← opField_append_argField w, ho, ha]; rfl)
    | dispctl ho ha => exact hp ((and_mask_eq_iff w _ 0xF8#8 _).mpr ⟨ho, ha⟩)

/-- Settles O3: a pattern of the table is a condition on the two fields, and the words of a row are counted by its arguments. -/
theorem legalWordsAreTheTablePatterns : Obligations.LegalWordsAreTheTablePatterns := by
  refine ⟨fun w h => ?_, fun w h => ?_, fun w h => ?_, ?_, fun w h => ?_, fun w => decodeRequest_error_of_no_pattern,
    countP_words id Function.injective_id (fun k => isSome_accepted_decodeRequest_iff _) (by simp [card_byte]),
    countP_words .inl Sum.inl_injective ?_ rfl,
    countP_words (.inr ∘ .inl) (Sum.inr_injective.comp Sum.inl_injective) ?_ card_byte,
    countP_words (.inr ∘ .inr ∘ .inl) (Sum.inr_injective.comp (Sum.inr_injective.comp Sum.inl_injective)) ?_ card_byte,
    countP_words (.inr ∘ .inr ∘ .inr ∘ .inl)
      (Sum.inr_injective.comp (Sum.inr_injective.comp (Sum.inr_injective.comp Sum.inl_injective))) ?_ rfl,
    countP_words (.inr ∘ .inr ∘ .inr ∘ .inr)
      (Sum.inr_injective.comp (Sum.inr_injective.comp (Sum.inr_injective.comp Sum.inr_injective))) ?_ rfl⟩
  · obtain ⟨ho, ha⟩ := (and_mask_eq_iff w 0x1#4 0xF3#8 0x00#8).mp h
    rw [decodeRequest_eq_ok_iff.mpr (.init ho ha)]
    simp [argField_eq_setWidth]
  · obtain ⟨ho, -⟩ := (and_mask_eq_iff w 0x2#4 0x00#8 0x00#8).mp h
    rw [decodeRequest_eq_ok_iff.mpr (.cmd ho), argField_eq_setWidth]
  · obtain ⟨ho, -⟩ := (and_mask_eq_iff w 0x3#4 0x00#8 0x00#8).mp h
    rw [decodeRequest_eq_ok_iff.mpr (.data ho), argField_eq_setWidth]
  · rintro _ rfl
    exact decodeRequest_encodeRequest (i := .clear) rfl
  · obtain ⟨ho, ha⟩ := (and_mask_eq_iff w 0x5#4 0xF8#8 0x00#8).mp h
    rw [decodeRequest_eq_ok_iff.mpr (.dispctl ho ha)]
    simp [argField_eq_setWidth]
  all_goals
    intro k
    cases decodeRequest (BitVec.ofNat 12 k) with
    | error why => simp
    | ok i => cases i <;> simp [requestOf, -Bool.exists_bool]

/-! ### Rows of the bus -/

/-- R11: the base bytes leave room for the bits that are ORed into them. -/
theorem basesClear_of_wf {c : Cfg} (h : c.wf = true) :
    c.dispctlBase &&& 0x07#8 = 0x00#8 ∧ c.funcsetBase &&& 0x0C#8 = 0x00#8 := by
  simp only [Cfg.wf, Bool.and_eq_true, Cfg.dispctlBaseClear, Cfg.funcsetBaseClear, beq_iff_eq] at h
  obtain ⟨⟨-, hdispctl⟩, hfuncset⟩ := h
  exact ⟨hdispctl, hfuncset⟩

theorem bytesDistinct_iff {c : Cfg} : c.bytesDistinct = true ↔
    (∀ d cur k, displayControlByte c d cur k ≠ c.clearCode) ∧
    ∀ n f, functionSetByte c n f ≠ c.clearCode ∧ functionSetByte c n f &&& 0xF8#8 ≠ c.dispctlBase := by
  simp [Cfg.bytesDistinct, bits]

theorem decodeBusByte_displayControlByte {c : Cfg} (hwf : c.wf = true) (hdist : c.bytesDistinct = true) (d cur k : Bool) :
    decodeBusByte c (displayControlByte c d cur k) = .ok (.lcdDispctl d cur k) := by
  obtain ⟨hd, hcur, hk, hbase⟩ := displayControlByte_fields (basesClear_of_wf hwf).1 d cur k
  have hne := (bytesDistinct_iff.mp hdist).1 d cur k
  rw [decodeBusByte, if_neg hne, if_pos hbase, hd, hcur, hk]

theorem decodeBusByte_functionSetByte {c : Cfg} (hwf : c.wf = true) (hdist : c.bytesDistinct = true) (n f : Bool) :
    decodeBusByte c (functionSetByte c n f) = .ok (.lcdFuncset n f) := by
  obtain ⟨hn, hf, hbase⟩ := functionSetByte_fields (basesClear_of_wf hwf).2 n f
  obtain ⟨hclear, hdispctl⟩ := (bytesDistinct_iff.mp hdist).2 n f
  rw [decodeBusByte, if_neg hclear, if_neg hdispctl, if_pos hbase, hn, hf]

/-- A handshake nibble is read back at its own place (R91, R97). -/
theorem decodeBusNibble_initNib (c : Cfg) (j : Fin 4) : decodeBusNibble c j (c.initNib j) = .ok (handshakeRow j) :=
  if_pos rfl

/-- Settles O2, row by row: a request by R85, a controller byte by its mask, a handshake nibble by its place. -/
theorem decodeEncodeEveryRow : Obligations.DecodeEncodeEveryRow := by
  intro c i _ hwf hdist
  match i with
  | .init n f => exact decodeRequest_encodeRequest (i := .init n f) rfl
  | .cmd b => exact decodeRequest_encodeRequest (i := .cmd b) rfl
  | .data b => exact decodeRequest_encodeRequest (i := .data b) rfl
  | .clear => exact decodeRequest_encodeRequest (i := .clear) rfl
  | .dispctl d cur k => exact decodeRequest_encodeRequest (i := .dispctl d cur k) rfl
  | .lcdClear => exact if_pos rfl
  | .lcdDispctl d cur k => exact decodeBusByte_displayControlByte hwf hdist d cur k
  | .lcdFuncset n f => exact decodeBusByte_functionSetByte hwf hdist n f
  | .lcdHs0 => exact decodeBusNibble_initNib c 0
  | .lcdHs1 => exact decodeBusNibble_initNib c 1
  | .lcdHs2 => exact decodeBusNibble_initNib c 2
  | .lcdHs3 => exact decodeBusNibble_initNib c 3

/-- Settles O4, by running the decoders. A bare nibble is read at the first handshake position it fits, so 0x3 is `LCD_HS0` (log 10). -/
theorem sampleWordsDecode : Obligations.SampleWordsDecode := by
  unfold Obligations.SampleWordsDecode
  decide

end Sys2Proof
end

section
/-! PROOFS. The tick in which the engine starts a transfer on the bus (R88 to R91, R110, R111, R113, R132). -/

namespace Sys2Proof.Machine

/-- Everything the first tick of a command transfer does, with the write of `RS` that may fail (R23, R110, R113). -/
theorem startTransfer_eq (q : BitVec 3) (b : Byte) (s : State) :
    startTransfer q b s =
      { s with
        seq := q, nib := false, rsq := false, byte := b, ph := .dw
        rs := if s.writeFails .rs then Config.freeLevel s.draws else false
        lineErr := s.lineErr || s.writeFails .rs
        trace := s.trace ++ [.rs false] ++ (if s.writeFails .rs then [.log .rs] else [])
        draws := if s.writeFails .rs then s.draws + 1 else s.draws } := by
  rw [startTransfer, rswTick, setRegisterSelect_eq]
  rfl

/-- Settles O15: each row starts the transfer of its own byte; that the row means this tick is the model's reading (log 9). -/
theorem controllerBytesStart : Obligations.ControllerBytesStart := by
  intro s d c k n f
  exact ⟨congrArg _ (startTransfer_eq 4#3 s.params.clearCode s),
    congrArg _ (startTransfer_eq 4#3 (displayControlByte s.params d c k) s),
    congrArg _ (startTransfer_eq 4#3 (functionSetByte s.params n f) s)⟩

/-- Settles O16: each row starts the pulse of its own place in the handshake; that the row means this tick is the model's
reading (log 9). -/
theorem handshakePulsesStart : Obligations.HandshakePulsesStart := by
  rintro s _ _ _ (⟨rfl, rfl, rfl⟩ | ⟨rfl, rfl, rfl⟩ | ⟨rfl, rfl, rfl⟩ | ⟨rfl, rfl, rfl⟩)
  · exact congrArg _ (startTransfer_eq 0#3 (handshakeByte s.params 0) s)
  · exact congrArg _ (startTransfer_eq 1#3 (handshakeByte s.params 1) s)
  · exact congrArg _ (startTransfer_eq 2#3 (handshakeByte s.params 2) s)
  · exact congrArg _ (startTransfer_eq 3#3 (handshakeByte s.params 3) s)

end Sys2Proof.Machine
end

section
/-! PROOFS. The line write and the phases that write lines or choose the next transfer, each as one whole tick with its frame (R110, R113
to R116, R118, R120). -/

namespace Sys2Proof.Machine

/-! ### The line write -/

/-- Settles O17. -/
theorem pinWriteWritesOrDraws : Obligations.PinWriteWritesOrDraws := by
  refine ⟨fun s => ⟨rfl, rfl, rfl, rfl, rfl, rfl⟩, fun l v s => ⟨setLine_level s l v, fun m => setLine_level_other s l m v⟩,
    fun l v s => pinWrite_of_succeeds l v s, fun l v s h => ?_⟩
  rw [pinWrite_eq]
  simp [h]

/-! ### Register-select and data -/

/-- Settles O18: the tick is one write of `RS`, and `EN` does not move. -/
theorem registerSelectPhase : Obligations.RegisterSelectPhase := by
  intro s hr hp
  have htick : engineTick s = { setRegisterSelect s.rsq s with ph := .dw } := by rw [engineTick, hp, rswTick]
  rw [setRegisterSelect_eq] at htick
  exact step_of_steady s _ hr (by simp [hp]) htick (.inr rfl)

/-- Settles O20: the four writes of the tick, each with its own level and its own log. -/
theorem dataPhaseLogsFailuresInOrder : Obligations.DataPhaseLogsFailuresInOrder := by
  intro s hr hp
  obtain ⟨a, b, c, d, ha, hb, hc, hd, hdrive⟩ := setDataNibble_logs s.cur s
  have htick : engineTick s = { setDataNibble s.cur s with ph := .enh } := by rw [engineTick, hp, dwTick]
  rw [hdrive, List.append_cons] at htick
  refine ⟨a, b, c, d, ha, hb, hc, hd, (step_of_steady s _ hr (by simp [hp]) htick (.inr rfl)).trans ?_⟩
  simp [State.logs]

/-! ### Enable -/

/-- A tick that writes `EN` and enters a wait: the level or a draw, the log between the two events, and the levels latched if `EN` falls
(R47, R110, R112, R35). -/
theorem step_of_enableWrite {s : State} {v : Bool} {k : WaitKind} {p : Phase} (hr : s.rstIn = false) (hb : s.ph ≠ .idle)
    (ht : engineTick s = enterWait k p (setEnable v s)) :
    step s = .next { s with
      ph := p, dly := waitTicks s.params k, now := s.now + 1, host := hostNext false s.host, env := s.env.tail
      en := if s.writeFails .en then Config.freeLevel s.draws else v
      lineErr := s.lineErr || s.writeFails .en
      trace := s.trace ++ [.en v] ++ (if s.writeFails .en then [.log .en] else []) ++ [.wait k]
      lat := if s.en && !(if s.writeFails .en then Config.freeLevel s.draws else v) then s.lat ++ [(s.rs, s.dn)] else s.lat
      draws := if s.writeFails .en then s.draws + 1 else s.draws } := by
  rw [step_of_busy s hr hb, ht, setEnable_eq, endTick_of_busy s _ hb]
  rfl

/-- Settles O21: `EN` written high falls only by a failed write. -/
theorem enableHighPhase : Obligations.EnableHighPhase := by
  intro s hr hp
  have htick : engineTick s = enterWait .pw .pw (setEnable true s) := by rw [engineTick, hp, enhTick]
  rw [step_of_enableWrite hr (by simp [hp]) htick]
  cases s.writeFails .en <;> simp [waitTicks]

theorem gapKind_ofNat (j : Fin 4) : gapKind (BitVec.ofNat 3 j.val) = .init j := by
  rw [gapKind, if_pos (position_ofNat j).2, (position_ofNat j).1]

/-- The tick of phase `ENL`, with the gap as `SEQ` says (R118). -/
theorem step_of_enl {s : State} (hr : s.rstIn = false) (hp : s.ph = .enl) :
    step s = .next { s with
      ph := .gap, dly := waitTicks s.params (gapKind s.seq), now := s.now + 1, host := hostNext false s.host, env := s.env.tail
      en := if s.writeFails .en then Config.freeLevel s.draws else false
      lineErr := s.lineErr || s.writeFails .en
      trace := s.trace ++ [.en false] ++ (if s.writeFails .en then [.log .en] else []) ++ [.wait (gapKind s.seq)]
      lat := if s.en && !(s.writeFails .en && Config.freeLevel s.draws) then s.lat ++ [(s.rs, s.dn)] else s.lat
      draws := if s.writeFails .en then s.draws + 1 else s.draws } := by
  have htick : engineTick s = enterWait (gapKind s.seq) .gap (setEnable false s) := by rw [engineTick, hp, enlTick]
  rw [step_of_enableWrite hr (by simp [hp]) htick]
  cases s.writeFails .en <;> simp

/-- Settles O22: a handshake pulse has its own delay, a nibble of a byte the settle delay. -/
theorem enableLowPhaseLatches : Obligations.EnableLowPhaseLatches := by
  rintro s k ticks hr hp (⟨j, hq, rfl, rfl⟩ | ⟨hq, rfl, rfl⟩)
  · simpa only [hq, gapKind_ofNat, waitTicks] using step_of_enl hr hp
  · simpa only [gapKind_of_byte hq, waitTicks] using step_of_enl hr hp

/-! ### The exit of the gap -/

/-- The tick that leaves `GAP` (R119). -/
theorem step_of_gapExit {s u : State} (hr : s.rstIn = false) (hp : s.ph = .gap) (hd : s.dly = 0) (hu : exitGap s = u)
    (hen : u.en = s.en) :
    step s = .next { u with now := u.now + 1, host := hostNext false u.host, env := u.env.tail } := by
  have htick : engineTick s = u := by rw [engineTick, hp, gapTick, waitStep_leaving exitGap s hd, hu]
  exact step_of_steady s u hr (by simp [hp]) htick (.inr hen)

theorem ne_three_and_not_lt_of_byte {q : BitVec 3} (h : 4#3 ≤ q) : ¬ q < 3#3 ∧ q ≠ 3#3 := by
  revert q
  decide

/-- After the high half of a byte comes the low half (R120). -/
theorem exitGap_of_highHalf {s : State} (hq : 4#3 ≤ s.seq) (hn : s.nib = false) : exitGap s = { s with nib := true, ph := .rsw } := by
  obtain ⟨hlt, hne⟩ := ne_three_and_not_lt_of_byte hq
  rw [exitGap, if_neg hlt, if_neg hne, if_pos hn]

/-- After the low half the operation decides (R120). -/
theorem exitGap_of_lowHalf {s : State} (hq : 4#3 ≤ s.seq) (hn : s.nib = true) : exitGap s = endOfByte s := by
  obtain ⟨hlt, hne⟩ := ne_three_and_not_lt_of_byte hq
  rw [exitGap, if_neg hlt, if_neg hne, if_neg (by simp [hn])]

/-- The place after handshake position `j`, as the engine counts it (R25). -/
theorem handshake_succ (j : Fin 3) :
    BitVec.ofNat 3 j.val < 3#3 ∧ BitVec.ofNat 3 j.val + 1#3 = BitVec.ofNat 3 (j.val + 1) ∧
      position (BitVec.ofNat 3 (j.val + 1)) = j.succ := by
  revert j
  decide

/-- After a handshake pulse before the last comes the next one (R120). -/
theorem exitGap_of_handshake {s : State} {j : Fin 3} (hq : s.seq = BitVec.ofNat 3 j.val) :
    exitGap s = { s with seq := BitVec.ofNat 3 (j.val + 1), byte := handshakeByte s.params j.succ, ph := .rsw } := by
  obtain ⟨hlt, hsucc, hpos⟩ := handshake_succ j
  rw [exitGap, hq, if_pos hlt, hsucc, hpos]

/-- After the last handshake pulse comes the function-set byte (R120). -/
theorem exitGap_of_lastHandshake {s : State} (hq : s.seq = 3#3) :
    exitGap s = { s with seq := 4#3, nib := false, byte := functionSetByte s.params s.argN s.argF, ph := .rsw } := by
  rw [exitGap, hq, if_neg (by decide), if_pos rfl]

/-- Settles O24, case by case as R120 orders them. -/
theorem gapExitChoosesTheNextTransfer : Obligations.GapExitChoosesTheNextTransfer := by
  intro s hr hp hd
  refine ⟨fun j hq => ?_, fun hq => ?_, fun hq hn => ?_, fun hq hn ho => ?_, fun hq hn ho => ?_, fun hq hn ho => ?_⟩
  · exact step_of_gapExit hr hp hd (exitGap_of_handshake hq) rfl
  · exact step_of_gapExit hr hp hd (exitGap_of_lastHandshake hq) rfl
  · exact step_of_gapExit hr hp hd (exitGap_of_highHalf hq hn) rfl
  · have hend : endOfByte s = enterWait .long .long s := by rw [endOfByte, ho]
    exact step_of_gapExit hr hp hd ((exitGap_of_lowHalf hq hn).trans hend) rfl
  · have hend : endOfByte s = { s with inited := true, cfgN := s.argN, cfgF := s.argF, ph := .idle } := by rw [endOfByte, ho]
    exact step_of_gapExit hr hp hd ((exitGap_of_lowHalf hq hn).trans hend) rfl
  · have hend : endOfByte s = { s with ph := .idle } := by rcases ho with ho | ho | ho <;> rw [endOfByte, ho]
    exact step_of_gapExit hr hp hd ((exitGap_of_lowHalf hq hn).trans hend) rfl

end Sys2Proof.Machine
end

section
/-! PROOFS. The lines where no write can fail (R121, R122(d), R224): `EN` is high in its two phases only, and the other lines hold the
transfer's level and nibble through the pulse. Each invariant holds after reset and every move of the engine keeps it. -/

namespace Sys2Proof.Machine

/-- A property that reset gives, that every move of the engine keeps, and that speaks neither of the host's side nor of what the end of a
tick writes, is kept by every step. -/
theorem kept_of_moves {P : State → Prop} (hreset : ∀ s, P (powerCycle s)) (hmove : ∀ s u, P s → MoveOf s u → P u)
    (hcalls : ∀ s host disp, P s → P { s with host := host, disp := disp }) (hend : ∀ s u, P u → P (endTick s u)) :
    ∀ s t, P s → step s = .next t → P t := by
  intro s t hs h
  cases hr : s.rstIn with
  | true => exact eq_powerCycle_of_step hr h ▸ hreset s
  | false =>
    obtain ⟨host, disp, u, hm, rfl⟩ := moveOf_of_step hr h
    exact hend _ u (hmove _ u (hcalls s host disp hs) hm)

/-! ### Enable -/

theorem BusyOf.enableFollows {s u : State} (hs : s.EnableFollows) (h : BusyOf s u) : u.EnableFollows := by
  intro hwu
  have hw : s.params.hasWfail = false := h.ghostsKept.1 ▸ hwu
  have hgood := writeFails_of_cannotFail hw
  obtain ⟨hen, herr⟩ := hs hw
  cases h with
  | count _ _ => exact ⟨hen, herr⟩
  | select hp | drive hp => exact ⟨hen.trans (by rw [hp]; rfl), by simp [herr, hgood]⟩
  | rise hp x hx | fall hp x hx => exact ⟨hx (hgood .en), by simp [herr, hgood]⟩
  | preEnds hp | pwEnds hp | longEnds hp | nextHandshake hp | functionSet hp | lowHalf hp | longBegins hp | initEnds hp
  | byteEnds hp =>
    exact ⟨hen.trans (by rw [hp]; rfl), herr⟩

/-- A request moves neither `EN` nor `LINEERR`, and leads to no phase in which `EN` is high. -/
theorem AskedOf.enableFollows {s u : State} {i : Instr} (hi : s.ph = .idle) (hs : s.EnableFollows) (h : AskedOf s i u) :
    u.EnableFollows := by
  intro hwu
  have hw : s.params.hasWfail = false := h.ghostsKept.1 ▸ hwu
  obtain ⟨hen, herr⟩ := hs hw
  rw [hi] at hen
  cases h with
  | init | cmd | data | clear | dispctl => exact ⟨hen, herr⟩
  | dropped => exact ⟨by rw [raise, hi]; exact hen, herr⟩

theorem MoveOf.enableFollows {s u : State} (hs : s.EnableFollows) (h : MoveOf s u) : u.EnableFollows := by
  cases h with
  | busy _ h => exact h.enableFollows hs
  | rest _ => exact hs
  | illegal _ => exact hs
  | asked hi h => exact h.enableFollows hi hs

/-- Settles O37. -/
theorem stepKeepsEnableInItsPhases : Obligations.StepKeepsEnableInItsPhases :=
  kept_of_moves (fun _ _ => ⟨rfl, rfl⟩) (fun _ _ hs h => h.enableFollows hs) (fun _ _ _ hs => hs) (fun _ _ hu => hu)

/-! ### The other lines -/

/-- Outside the pulse nothing is asked of the lines. -/
theorem linesHold_of_outside {u : State} (h : u.ph = .idle ∨ u.ph = .pre ∨ u.ph = .rsw ∨ u.ph = .long) : u.LinesHold := by
  rcases h with h | h | h | h <;> simp [State.LinesHold, h]

theorem BusyOf.linesHold {s u : State} (hs : s.LinesHold) (h : BusyOf s u) : u.LinesHold := by
  cases h with
  | count _ _ => exact hs
  | select hp x hx => exact fun hw => ⟨fun _ => hx (writeFails_of_cannotFail hw .rs), by simp⟩
  | drive hp a b c d ha hb hc hd =>
    intro hw
    have hgood := writeFails_of_cannotFail (s := s) hw
    exact ⟨fun _ => (hs hw).1 (by simp [hp]),
      fun _ => dn_of_bits s.cur _ (ha (hgood .d4)) (hb (hgood .d5)) (hc (hgood .d6)) (hd (hgood .d7))⟩
  | rise hp | pwEnds hp | fall hp => exact fun hw => ⟨fun _ => (hs hw).1 (by simp [hp]), fun _ => (hs hw).2 (by simp [hp])⟩
  | _ => exact linesHold_of_outside (by simp)

theorem AskedOf.linesHold {s u : State} {i : Instr} (hs : s.LinesHold) (h : AskedOf s i u) : u.LinesHold := by
  cases h with
  | init => exact linesHold_of_outside (.inr (.inl rfl))
  | cmd | data | clear | dispctl => exact linesHold_of_outside (.inr (.inr (.inl rfl)))
  | dropped => exact hs

theorem MoveOf.linesHold {s u : State} (hs : s.LinesHold) (h : MoveOf s u) : u.LinesHold := by
  cases h with
  | busy _ h => exact h.linesHold hs
  | rest _ => exact hs
  | illegal _ => exact hs
  | asked _ h => exact h.linesHold hs

/-- Settles O38. -/
theorem stepKeepsLinesThroughThePulse : Obligations.StepKeepsLinesThroughThePulse :=
  kept_of_moves (fun _ => linesHold_of_outside (.inl rfl)) (fun _ _ hs h => h.linesHold hs) (fun _ _ _ hs => hs) (fun _ _ hu => hu)

end Sys2Proof.Machine
end

section
/-! PROOFS. One pulse as a whole (R122): the state after each of its ticks is written out (`PulseAt`), a tick leads from each to the next,
and what the rule says is read off. -/

namespace Sys2Proof.Machine

/-! ### No write fails -/

theorem writesSucceed_of_noFailure {s : State} (h : s.noFailure = true) : s.writesSucceed = true := by
  unfold State.noFailure at h
  unfold State.writesSucceed State.wfailIn
  cases he : s.env with
  | nil => simp
  | cons e t =>
    rw [he, List.all_cons] at h
    cases hw : s.params.hasWfail <;> simp_all

theorem noFailure_of_env_drop {s t : State} (k : Nat) (h : s.noFailure = true) (hp : t.params = s.params)
    (he : t.env = s.env.drop k) : t.noFailure = true := by
  rw [State.noFailure, Bool.or_eq_true] at h ⊢
  rw [hp, he]
  refine h.imp_right fun hall => List.all_eq_true.mpr fun e hm => ?_
  exact List.all_eq_true.mp hall e (List.mem_of_mem_drop hm)

/-! ### The moves of a pulse -/

/-- The inputs moved on past one tick of a busy engine, which does not read the port (R33). -/
def State.ticked (s : State) : State := { s with now := s.now + 1, host := hostNext false s.host, env := s.env.tail }

/-- `s` once `RS` has its level (R113). -/
def State.selected (s : State) : State := { s with rs := s.rsq, ph := .dw, trace := s.trace ++ [.rs s.rsq] }

/-- `s` once the data lines have the current nibble (R114). -/
def State.driven (s : State) : State :=
  { s with
    d4 := s.cur.getLsbD 0, d5 := s.cur.getLsbD 1, d6 := s.cur.getLsbD 2, d7 := s.cur.getLsbD 3
    ph := .enh, trace := s.trace ++ [.data s.cur] }

/-- `s` once `EN` is high and the pulse width is loaded (R115). -/
def State.raised (s : State) : State :=
  { s with en := true, ph := .pw, dly := s.params.tPw, trace := s.trace ++ [.en true, .wait .pw] }

/-- `s` once `EN` has fallen, the levels are latched and the gap is loaded (R118, R47). -/
def State.lowered (s : State) : State :=
  { s with
    en := false, ph := .gap, dly := waitTicks s.params (gapKind s.seq)
    trace := s.trace ++ [.en false, .wait (gapKind s.seq)], lat := s.lat ++ [(s.rs, s.dn)] }

/-- `s` once its wait has counted `i` ticks (R35). -/
def State.waited (s : State) (i : Nat) : State := { s with dly := s.dly - i }

section
variable {s : State} (hr : s.rstIn = false) (hw : ∀ l, s.writeFails l = false)
include hr hw

theorem step_of_selecting (hp : s.ph = .rsw) : step s = .next s.selected.ticked := by
  simpa [hw, State.ticked, State.selected] using registerSelectPhase s hr hp

theorem step_of_driving (hp : s.ph = .dw) : step s = .next s.driven.ticked := by
  obtain ⟨a, b, c, d, ha, hb, hc, hd, hstep⟩ := dataPhaseLogsFailuresInOrder s hr hp
  rw [ha (hw .d4), hb (hw .d5), hc (hw .d6), hd (hw .d7)] at hstep
  simpa [hw, State.ticked, State.driven] using hstep

theorem step_of_raising (hp : s.ph = .enh) : step s = .next s.raised.ticked := by
  simpa [hw, State.ticked, State.raised] using enableHighPhase s hr hp

theorem step_of_lowering (hp : s.ph = .enl) (he : s.en = true) : step s = .next s.lowered.ticked := by
  simpa [hw, he, State.ticked, State.lowered] using step_of_enl hr hp

end

/-! ### The pulse tick by tick -/

/-- `s` with `j` ticks gone by and `h` left to the host. -/
def State.elapsed (s : State) (j : Nat) (h : List HostAct) : State :=
  { s with now := s.now + j, host := h, env := s.env.drop j }

theorem ticked_elapsed (s : State) (j : Nat) (h : List HostAct) :
    (s.elapsed j h).ticked = s.elapsed (j + 1) (hostNext false h) := by
  simp only [State.ticked, State.elapsed, List.tail_drop, Nat.add_assoc]

/-- `s`, at the start of a pulse, once the pulse width is over: everything is on the lines and `EN` is still high (R117). -/
def State.strobed (s : State) : State := { s.selected.driven.raised.waited s.params.tPw with ph := .enl }

/-- The registers and ghosts of a pulse that starts in `s`: `PulseAt s j r` where they are those of `r` after `j` ticks, up to the end of
`GAP` (R113 to R119). -/
inductive PulseAt (s : State) : Nat → State → Prop
  | start : PulseAt s 0 s
  | selected : PulseAt s 1 s.selected
  | driven : PulseAt s 2 s.selected.driven
  | high (i : Nat) (hi : i ≤ s.params.tPw) : PulseAt s (i + 3) (s.selected.driven.raised.waited i)
  | strobed : PulseAt s (s.params.tPw + 4) s.strobed
  | low (i : Nat) (hi : i ≤ waitTicks s.params (gapKind s.seq)) : PulseAt s (s.params.tPw + i + 5) (s.strobed.lowered.waited i)

theorem PulseAt.params_env {s r : State} {j : Nat} (h : PulseAt s j r) : r.params = s.params ∧ r.env = s.env := by
  cases h <;> exact ⟨rfl, rfl⟩

/-- No reset and no failure in `s` and after: none in any tick of the pulse. -/
theorem PulseAt.inputs {s r : State} {j : Nat} {host : List HostAct} (hn : s.noReset = true) (hf : s.noFailure = true)
    (h : PulseAt s j r) : (r.elapsed j host).rstIn = false ∧ ∀ l, (r.elapsed j host).writeFails l = false := by
  obtain ⟨hpar, henv⟩ := h.params_env
  have hdrop : (r.elapsed j host).env = s.env.drop j := congrArg (List.drop j) henv
  have hgood := writesSucceed_of_noFailure (noFailure_of_env_drop (t := r.elapsed j host) j hf hpar hdrop)
  exact ⟨rstIn_of_noReset (noReset_of_env_drop j hn hdrop), fun l => writeFails_of_writesSucceed _ l hgood⟩

/-- Each tick of the pulse leads to the next. -/
theorem PulseAt.next {s r : State} {j : Nat} {host : List HostAct} (hn : s.noReset = true) (hf : s.noFailure = true)
    (hp : s.ph = .rsw) (hj : j < s.params.tPw + waitTicks s.params (gapKind s.seq) + 5) (h : PulseAt s j r) :
    ∃ r', PulseAt s (j + 1) r' ∧ step (r.elapsed j host) = .next (r'.elapsed j host).ticked := by
  obtain ⟨hr, hw⟩ := h.inputs (host := host) hn hf
  obtain ⟨hcount, -, hpwEnds, -⟩ := waitPhasesCountAndLeave _ hr
  cases h with
  | start => exact ⟨_, .selected, step_of_selecting hr hw hp⟩
  | selected => exact ⟨_, .driven, step_of_driving hr hw rfl⟩
  | driven => exact ⟨_, .high 0 (Nat.zero_le _), step_of_raising hr hw rfl⟩
  | high i hi =>
    rcases hi.lt_or_eq with hlt | rfl
    · exact ⟨_, .high (i + 1) hlt, hcount (.inr (.inl rfl)) (Nat.sub_ne_zero_of_lt hlt)⟩
    · exact ⟨_, .strobed, hpwEnds (Nat.sub_self s.params.tPw) rfl⟩
  | strobed => exact ⟨_, .low 0 (Nat.zero_le _), step_of_lowering hr hw rfl rfl⟩
  | low i hi =>
    have hlt : i < waitTicks s.params (gapKind s.seq) := by omega
    exact ⟨_, .low (i + 1) hlt, hcount (.inr (.inr (.inl rfl))) (Nat.sub_ne_zero_of_lt hlt)⟩

theorem runTicks_pulseAt {s : State} (hn : s.noReset = true) (hf : s.noFailure = true) (hp : s.ph = .rsw) (j : Nat)
    (hj : j ≤ s.params.tPw + waitTicks s.params (gapKind s.seq) + 5) :
    ∃ r host, PulseAt s j r ∧ runTicks j s = .next (r.elapsed j host) := by
  induction j with
  | zero => exact ⟨s, s.host, .start, rfl⟩
  | succ j ih =>
    obtain ⟨r, host, hat, hrun⟩ := ih (Nat.le_of_succ_le hj)
    obtain ⟨r', hnext, hstep⟩ := hat.next (host := host) hn hf hp hj
    rw [ticked_elapsed] at hstep
    exact ⟨r', _, hnext, (runTicks_add j 1 s _ hrun).trans (runTicks_one _ _ hstep)⟩

/-- R122(d): `EN` is high for `T_PW + 2` ticks of the pulse. -/
theorem PulseAt.en_iff {s r : State} {j : Nat} (he : s.en = false) (h : PulseAt s j r) :
    r.en = true ↔ 3 ≤ j ∧ j < 3 + (s.params.tPw + 2) := by
  cases h with
  | start | selected | driven => simp [State.selected, State.driven, he]
  | high i hi => simp [State.waited, State.raised]; omega
  | strobed => simp [State.strobed, State.waited, State.raised]; omega
  | low i hi => simp [State.waited, State.lowered]; omega

/-- R122(a), (b), (c), (e): how the pulse ends. -/
theorem PulseAt.last {s r : State} (h : PulseAt s (s.params.tPw + waitTicks s.params (gapKind s.seq) + 5) r) :
    r = s.strobed.lowered.waited (waitTicks s.params (gapKind s.seq)) := by
  generalize hj : s.params.tPw + waitTicks s.params (gapKind s.seq) + 5 = j at h
  cases h with
  | low i hi =>
    obtain rfl : i = waitTicks s.params (gapKind s.seq) := by omega
    rfl
  | high i hi => omega
  | start | selected | driven | strobed => omega

/-- The last state of a pulse, field by field. -/
theorem strobed_lowered_waited {s : State} (he : s.en = false) :
    s.strobed.lowered.waited (waitTicks s.params (gapKind s.seq)) = { s with
      rs := s.rsq, d4 := s.cur.getLsbD 0, d5 := s.cur.getLsbD 1, d6 := s.cur.getLsbD 2, d7 := s.cur.getLsbD 3
      ph := .gap, dly := 0, trace := s.trace ++ pulse s.rsq s.cur (gapKind s.seq), lat := s.lat ++ [(s.rsq, s.cur)] } := by
  have hdn : s.strobed.dn = s.cur := dn_of_bits s.cur _ rfl rfl rfl rfl
  rw [State.lowered, hdn]
  simp [State.waited, State.strobed, State.raised, State.driven, State.selected, State.cur, pulse, he]

/-- Settles O26, by induction on the ticks of the pulse. -/
theorem nibblePulseAsAWhole : Obligations.NibblePulseAsAWhole := by
  intro s hn hf hp he
  refine ⟨?_, fun j t hj hrun => ?_⟩
  · obtain ⟨r, host, hat, hrun⟩ := runTicks_pulseAt hn hf hp _ le_rfl
    rw [hat.last, strobed_lowered_waited he] at hrun
    exact ⟨host, hrun⟩
  · obtain ⟨r, host, hat, hrun'⟩ := runTicks_pulseAt hn hf hp j hj
    cases hrun.symm.trans hrun'
    exact (hat.en_iff he :)

end Sys2Proof.Machine
end

section
/-! PROOFS. The acceptance of a request, and the ticks it then still takes (R130, R136, R150, R151, R153, R165, R167, R170, R254). -/

namespace Sys2Proof.Machine

/-- `INIT` is accepted by an idle engine, initialized or not (R137, R142). -/
theorem exec_init_of_idle {s : State} (hi : s.ph = .idle) (n f : Bool) : exec (.init n f) s = .next (acceptInit n f s) :=
  congrArg _ (whenIdle_of_idle (acceptInit n f) s hi)

/-- A request other than `INIT` is accepted by an idle engine that is initialized (R32, R215). -/
theorem whenIdle_whenReady {s : State} (hi : s.ph = .idle) (hd : s.inited = true) (accept : State → State) :
    whenIdle (whenReady accept) s = accept s := by
  rw [whenIdle_of_idle _ s hi, whenReady, if_pos hd]

/-- Settles O8: the word is read by its two fields, and the acceptance writes what R130 writes. -/
theorem initIsAccepted : Obligations.InitIsAccepted :=
  ⟨by decide, fun _ n f hi => exec_init_of_idle hi n f⟩

/-- The duration of an `INIT`, its acceptance tick counted (R136). -/
def initTicks (c : Cfg) : Nat :=
  c.tPowerOn + c.tInit0 + c.tInit1 + c.tInit2 + c.tInit3 + 6 * c.tPw + 2 * c.tSettle + 38

/-- An accepted `INIT` has the power-on wait, four handshake pulses and a byte before it (R131, R132, R133). -/
theorem ticksLeft_acceptInit (s : State) (n f : Bool) :
    (acceptInit n f s).ticksLeft = s.params.tPowerOn + 1 +
      (pulseTicks s.params (.init 0) + pulseTicks s.params (.init 1) + pulseTicks s.params (.init 2) +
        pulseTicks s.params (.init 3)) +
      2 * pulseTicks s.params .settle := by
  have hgap : gapKind 0#3 = .init 0 := gapKind_ofNat 0
  have hleft : (acceptInit n f s).ticksLeft =
      s.params.tPowerOn + 1 + pulseTicks s.params (gapKind 0#3) + afterPulseTicks s.params .init 0#3 false := rfl
  rw [hleft, hgap, afterPulseTicks, if_pos rfl, tailTicks, if_neg (by decide)]
  omega

theorem ticksLeft_acceptInit_succ (s : State) (n f : Bool) : (acceptInit n f s).ticksLeft + 1 = initTicks s.params := by
  simp only [ticksLeft_acceptInit, initTicks, pulseTicks, waitTicks, Cfg.tInit]
  omega

/-- An accepted byte has two pulses with the settle delay before it, and after `CLEAR` the long wait (R153, R167). -/
theorem ticksLeft_acceptByte (op : Opc) (level : Bool) (b : Byte) (s : State) :
    (acceptByte op level b s).ticksLeft = 2 * pulseTicks s.params .settle + tailTicks s.params op := by
  have hbyte : 4#3 ≤ 4#3 := BitVec.le_refl 4#3
  have hleft : (acceptByte op level b s).ticksLeft =
      s.params.tPw + waitTicks s.params (gapKind 4#3) + 6 + afterPulseTicks s.params op 4#3 false := rfl
  rw [hleft, gapKind_of_byte hbyte, afterPulseTicks_byte _ _ _ _ hbyte, if_neg (by decide), pulseTicks]
  omega

/-- Settles O32: each request's acceptance loads what `ticksLeft` counts. -/
theorem acceptanceFixesTheDuration : Obligations.AcceptanceFixesTheDuration := by
  intro s b d c k n f hi
  have hbyte : ∀ op level b, (acceptByte op level b s).ticksLeft + 1 =
      2 * s.params.tPw + 2 * s.params.tSettle + 13 + tailTicks s.params op := by
    intro op level b
    rw [ticksLeft_acceptByte, pulseTicks, waitTicks]
    omega
  refine ⟨⟨_, exec_init_of_idle hi n f, ticksLeft_acceptInit_succ s n f⟩, fun hd => ⟨?_, ?_, ?_, ?_⟩⟩
  · exact ⟨_, congrArg Host.Outcome.next (whenIdle_whenReady hi hd _), hbyte .cmd false b⟩
  · exact ⟨_, congrArg Host.Outcome.next (whenIdle_whenReady hi hd _), hbyte .data true b⟩
  · exact ⟨_, congrArg Host.Outcome.next (whenIdle_whenReady hi hd _), hbyte .dispctl false _⟩
  · refine ⟨_, congrArg Host.Outcome.next (whenIdle_whenReady hi hd _), (hbyte .clear false _).trans ?_⟩
    rw [tailTicks, if_pos rfl]
    omega

end Sys2Proof.Machine
end

section
/-! PROOFS. Runs composed of pulses: a relation of registers and ghosts (`Leads`) in which legs of a run are glued together, whatever
the host does and whenever they begin, and one leg for each thing that can follow a pulse (R120, R122). -/

namespace Sys2Proof.Machine

/-! ### Legs of a run -/

/-- No reset and no failing write is coming (R224). -/
structure State.Undisturbed (s : State) : Prop where
  noReset : s.noReset = true
  noFailure : s.noFailure = true

theorem undisturbed_of_env_drop {s t : State} (k : Nat) (h : s.Undisturbed) (hp : t.params = s.params)
    (he : t.env = s.env.drop k) : t.Undisturbed :=
  ⟨noReset_of_env_drop k h.noReset he, noFailure_of_env_drop k h.noFailure hp he⟩

theorem elapsed_elapsed (s : State) (j k : Nat) (g h : List HostAct) : (s.elapsed j g).elapsed k h = s.elapsed (j + k) h := by
  simp only [State.elapsed, List.drop_drop, Nat.add_assoc]

/-- An undisturbed run of `k` ticks from `s` ends in `r`, whenever it begins and whatever the host does: `s` and `r` stand for their
registers and ghosts, and the inputs have moved on by the ticks gone by. -/
structure Leads (k : Nat) (s r : State) : Prop where
  params : r.params = s.params
  env : r.env = s.env
  run : ∀ j g, (s.elapsed j g).Undisturbed → ∃ h, runTicks k (s.elapsed j g) = .next (r.elapsed (j + k) h)

theorem Leads.trans {j k : Nat} {s r u : State} (h₁ : Leads j s r) (h₂ : Leads k r u) : Leads (j + k) s u := by
  refine ⟨h₂.params.trans h₁.params, h₂.env.trans h₁.env, fun i g hs => ?_⟩
  obtain ⟨g', hrun₁⟩ := h₁.run i g hs
  have hr : (r.elapsed (i + j) g').Undisturbed :=
    undisturbed_of_env_drop j hs h₁.params (by simp only [State.elapsed, h₁.env, List.drop_drop])
  obtain ⟨h, hrun₂⟩ := h₂.run (i + j) g' hr
  exact ⟨h, by rw [runTicks_add j k _ _ hrun₁, hrun₂, Nat.add_assoc]⟩

/-- A tick that glues to the end of a run. -/
theorem runTicks_snoc {k j : Nat} {s r u : State} {g : List HostAct} (hrun : runTicks k s = .next (r.elapsed j g))
    (hstep : step (r.elapsed j g) = .next (u.elapsed j g).ticked) :
    runTicks (k + 1) s = .next (u.elapsed (j + 1) (hostNext false g)) := by
  rw [runTicks_add k 1 s _ hrun, runTicks_one _ _ hstep, ticked_elapsed]

/-- The power-on wait (R131). -/
theorem leads_preWait {s : State} (hp : s.ph = .pre) : Leads (s.dly + 1) s { s with dly := 0, ph := .rsw } := by
  refine ⟨rfl, rfl, fun j g hs => ?_⟩
  obtain ⟨h, hrun⟩ := runTicks_of_counting hs.noReset (by simp [Phase.waits, State.elapsed, hp]) s.dly le_rfl
  have hcounted : (s.elapsed j g).counted s.dly h = State.elapsed { s with dly := 0 } (j + s.dly) h := by
    rw [← elapsed_elapsed _ j s.dly g h]
    simp only [State.counted, State.elapsed, Nat.sub_self]
  rw [hcounted] at hrun
  have hr : (State.elapsed { s with dly := 0 } (j + s.dly) h).rstIn = false := by
    rw [← hcounted]
    exact rstIn_counted hs.noReset s.dly h
  obtain ⟨-, hpreEnds, -⟩ := waitPhasesCountAndLeave _ hr
  exact ⟨_, runTicks_snoc hrun (hpreEnds rfl hp)⟩

/-! ### A pulse and what follows it -/

/-- What a pulse leaves on the lines and in the ghosts (R122(a), (b), (e)). -/
def State.sent (s : State) (level : Bool) (n : Nibble) (k : WaitKind) : State :=
  { s with
    rs := level, en := false, d4 := n.getLsbD 0, d5 := n.getLsbD 1, d6 := n.getLsbD 2, d7 := n.getLsbD 3
    trace := s.trace ++ pulse level n k, lat := s.lat ++ [(level, n)] }

/-- `s`, at the start of a pulse, once the gap has run out. -/
def State.pulsed (s : State) : State := { s.sent s.rsq s.cur (gapKind s.seq) with ph := .gap, dly := 0 }

/-- The pulse ends the same where `EN` was high before it. -/
theorem strobed_lowered_waited_eq_pulsed (s : State) :
    s.strobed.lowered.waited (waitTicks s.params (gapKind s.seq)) = s.pulsed :=
  strobed_lowered_waited (s := { s with en := false }) rfl

/-- A pulse, to the last tick of its gap (R122). -/
theorem leads_pulse {s : State} (hp : s.ph = .rsw) :
    Leads (s.params.tPw + waitTicks s.params (gapKind s.seq) + 5) s s.pulsed := by
  refine ⟨rfl, rfl, fun j g hs => ?_⟩
  obtain ⟨r, h, hat, hrun⟩ := runTicks_pulseAt hs.noReset hs.noFailure hp _ le_rfl
  rw [hat.last, strobed_lowered_waited_eq_pulsed] at hrun
  refine ⟨h, hrun.trans ?_⟩
  rw [← elapsed_elapsed _ j _ g h]
  rfl

/-- The tick that leaves the gap (R119, R120). -/
theorem leads_gapExit {s u : State} (hp : s.ph = .gap) (hd : s.dly = 0)
    (hu : ∀ j g, exitGap (s.elapsed j g) = u.elapsed j g) (hen : u.en = s.en) : Leads 1 s u := by
  have hexit : BusyOf (s.elapsed 0 s.host) (u.elapsed 0 s.host) := hu 0 s.host ▸ busyOf_exitGap hp hd
  obtain ⟨hpar, -⟩ := hexit.ghostsKept
  refine ⟨hpar, hexit.env, fun j g hs => ⟨hostNext false g, ?_⟩⟩
  exact runTicks_snoc rfl (step_of_gapExit (rstIn_of_noReset hs.noReset) hp hd (hu j g) hen)

/-- The engine about to send half `half` of `b` at place `q` of its operation (R23, R25). -/
def State.atPulse (s : State) (q : BitVec 3) (half level : Bool) (b : Byte) : State :=
  { s with seq := q, nib := half, rsq := level, byte := b, ph := .rsw, dly := 0 }

/-- The same at the end of the gap of that pulse. -/
def State.atGap (s : State) (q : BitVec 3) (half level : Bool) (b : Byte) : State :=
  { s.atPulse q half level b with ph := .gap }

/-- One pulse and its exit, for the nibble and the gap that the place and the half choose (R23, R118). -/
theorem leads_atPulse {s u : State} {q : BitVec 3} {half level : Bool} {b : Byte} {n : Nibble} {k : WaitKind}
    (hn : (if half then lo b else hi b) = n) (hk : gapKind q = k)
    (hu : ∀ j g, exitGap (((s.sent level n k).atGap q half level b).elapsed j g) = u.elapsed j g)
    (hen : u.en = false) : Leads (pulseTicks s.params k) (s.atPulse q half level b) u := by
  subst hn hk
  exact (leads_pulse (s := s.atPulse q half level b) rfl).trans (leads_gapExit rfl rfl hu hen)

/-- A handshake pulse before the last, and the next one loaded (R120, R132). -/
theorem leads_handshake (s : State) (j : Fin 3) :
    Leads (pulseTicks s.params (.init j.castSucc))
      (s.atPulse (BitVec.ofNat 3 j.val) false false (handshakeByte s.params j.castSucc))
      ((s.sent false (s.params.initNib j.castSucc) (.init j.castSucc)).atPulse (BitVec.ofNat 3 (j.val + 1)) false false
        (handshakeByte s.params j.succ)) :=
  leads_atPulse (hi_lo_handshake _).1 (gapKind_ofNat j.castSucc) (fun _ _ => exitGap_of_handshake rfl) rfl

/-- The last handshake pulse, and the function-set byte loaded (R120, R133). -/
theorem leads_lastHandshake (s : State) :
    Leads (pulseTicks s.params (.init 3)) (s.atPulse 3#3 false false (handshakeByte s.params 3))
      ((s.sent false s.params.initNib3 (.init 3)).atPulse 4#3 false false (functionSetByte s.params s.argN s.argF)) :=
  leads_atPulse (hi_lo_handshake _).1 (gapKind_ofNat 3) (fun _ _ => exitGap_of_lastHandshake rfl) rfl

/-- The high half of a byte, and the low half chosen (R120, R152). -/
theorem leads_highHalf (s : State) (level : Bool) (b : Byte) :
    Leads (pulseTicks s.params .settle) (s.atPulse 4#3 false level b)
      ((s.sent level (hi b) .settle).atPulse 4#3 true level b) :=
  leads_atPulse (n := hi b) rfl (gapKind_of_byte (BitVec.le_refl 4#3)) (fun _ _ => exitGap_of_highHalf (BitVec.le_refl 4#3) rfl) rfl

/-- What the two pulses of a byte leave on the lines and in the ghosts (R152). -/
def State.sentByte (s : State) (level : Bool) (b : Byte) : State :=
  (s.sent level (hi b) .settle).sent level (lo b) .settle

/-- A byte, high half first, and the end that its operation gives it (R120, R152). -/
theorem leads_byte {s u : State} {level : Bool} {b : Byte}
    (hu : ∀ j g, endOfByte (((s.sentByte level b).atGap 4#3 true level b).elapsed j g) = u.elapsed j g) (hen : u.en = false) :
    Leads (2 * pulseTicks s.params .settle) (s.atPulse 4#3 false level b) u := by
  have hlow : Leads (pulseTicks s.params .settle) ((s.sent level (hi b) .settle).atPulse 4#3 true level b) u :=
    leads_atPulse (n := lo b) rfl (gapKind_of_byte (BitVec.le_refl 4#3))
      (fun j g => (exitGap_of_lowHalf (BitVec.le_refl 4#3) rfl).trans (hu j g)) hen
  rw [Nat.two_mul]
  exact (leads_highHalf s level b).trans hlow

end Sys2Proof.Machine
end

section
/-! PROOFS. `INIT` as a whole (R130 to R137): its run is the power-on wait, four handshake pulses and the function-set byte, and its end
does not depend on the lines before it, so that an equal one after it ends the same. -/

namespace Sys2Proof.Machine

/-- The events of `INIT n, f` (R135). -/
def initEvents (c : Cfg) (n f : Bool) : List Event :=
  .wait .powerOn :: (pulse false c.initNib0 (.init 0) ++ pulse false c.initNib1 (.init 1) ++ pulse false c.initNib2 (.init 2) ++
    pulse false c.initNib3 (.init 3) ++ byteEvents false (functionSetByte c n f))

/-- The nibbles that `INIT n, f` latches (R135). -/
def initNibbles (c : Cfg) (n f : Bool) : List (Bool × Nibble) :=
  [(false, c.initNib0), (false, c.initNib1), (false, c.initNib2), (false, c.initNib3)] ++ byteNibbles false (functionSetByte c n f)

/-- The registers and ghosts once `INIT n, f` has run from `s` (R135). -/
def State.initialized (s : State) (n f : Bool) : State :=
  { s with
    rs := false, en := false
    d4 := (lo (functionSetByte s.params n f)).getLsbD 0, d5 := (lo (functionSetByte s.params n f)).getLsbD 1
    d6 := (lo (functionSetByte s.params n f)).getLsbD 2, d7 := (lo (functionSetByte s.params n f)).getLsbD 3
    ph := .idle, opc := .init, seq := 4#3, nib := true, byte := functionSetByte s.params n f, rsq := false
    argN := n, argF := f, dly := 0, inited := true, cfgN := n, cfgF := f
    trace := s.trace ++ initEvents s.params n f, lat := s.lat ++ initNibbles s.params n f }

/-- `s` once `INIT n, f` is accepted, with the transfer left out (R130). -/
def State.poweredOn (s : State) (n f : Bool) : State :=
  { s with opc := .init, argN := n, argF := f, inited := false, trace := s.trace ++ [.wait .powerOn] }

/-- `s` with the first three handshake nibbles sent (R132). -/
def State.sentThree (s : State) : State :=
  ((s.sent false s.params.initNib0 (.init 0)).sent false s.params.initNib1 (.init 1)).sent false s.params.initNib2 (.init 2)

/-- `s` with all four sent. -/
def State.handshaken (s : State) : State := s.sentThree.sent false s.params.initNib3 (.init 3)

/-- The handshake, with the function-set byte loaded after it (R132, R133). -/
theorem leads_handshaken (s : State) :
    Leads (pulseTicks s.params (.init 0) + pulseTicks s.params (.init 1) + pulseTicks s.params (.init 2) +
        pulseTicks s.params (.init 3))
      (s.atPulse 0#3 false false (handshakeByte s.params 0))
      (s.handshaken.atPulse 4#3 false false (functionSetByte s.params s.argN s.argF)) := by
  have hthree := ((leads_handshake s 0).trans (leads_handshake _ 1)).trans (leads_handshake _ 2)
  exact hthree.trans (leads_lastHandshake s.sentThree)

theorem trace_handshaken_sentByte (s : State) (n f : Bool) :
    ((s.poweredOn n f).handshaken.sentByte false (functionSetByte s.params n f)).trace = s.trace ++ initEvents s.params n f := by
  simp [State.sentByte, State.handshaken, State.sentThree, State.sent, State.poweredOn, initEvents, byteEvents]

theorem lat_handshaken_sentByte (s : State) (n f : Bool) :
    ((s.poweredOn n f).handshaken.sentByte false (functionSetByte s.params n f)).lat = s.lat ++ initNibbles s.params n f := by
  simp [State.sentByte, State.handshaken, State.sentThree, State.sent, State.poweredOn, initNibbles, byteNibbles]

/-- The function-set byte, and the mode and configuration written at its end (R133, R134). -/
theorem leads_functionSet (s : State) (n f : Bool) :
    Leads (2 * pulseTicks s.params .settle)
      ((s.poweredOn n f).handshaken.atPulse 4#3 false false (functionSetByte s.params n f)) (s.initialized n f) := by
  refine leads_byte (s := (s.poweredOn n f).handshaken) (fun j g => ?_) rfl
  rw [State.initialized, ← trace_handshaken_sentByte, ← lat_handshaken_sentByte]
  rfl

/-- An accepted `INIT`, to its end: the power-on wait, the handshake, the function-set byte. -/
theorem leads_acceptInit (s : State) (n f : Bool) :
    Leads (acceptInit n f s).ticksLeft (acceptInit n f s) (s.initialized n f) := by
  rw [ticksLeft_acceptInit]
  exact ((leads_preWait (s := acceptInit n f s) rfl).trans (leads_handshaken (s.poweredOn n f))).trans (leads_functionSet s n f)

/-- The acceptance tick of a held `INIT`, which consumes the offer (R130, R33). -/
theorem step_of_offeredInit {s : State} {n f : Bool} {rest : List HostAct} (hr : s.rstIn = false) (hi : s.ph = .idle)
    (hh : s.host = .offer (encodeRequest (.init n f)) :: rest) : step s = .next ((acceptInit n f s).elapsed 1 rest) := by
  obtain ⟨t, hexec, hstep⟩ := stepRunsTheOfferedRequest s _ rest (.init n f) hr hi (.inl hh) (decodeRequest_encodeRequest rfl)
  cases (exec_init_of_idle hi n f).symm.trans hexec
  rw [hstep, latched_of_steady s (acceptInit n f s) (.inr rfl), ← List.drop_one]
  rfl

/-- `INIT` offered to an idle engine, to its end (R135, R136). -/
theorem runTicks_of_offeredInit {s : State} {n f : Bool} {rest : List HostAct} (hs : s.Undisturbed) (hi : s.ph = .idle)
    (hh : s.host = .offer (encodeRequest (.init n f)) :: rest) :
    ∃ h, runTicks (initTicks s.params) s = .next ((s.initialized n f).elapsed (initTicks s.params) h) := by
  have hstep := step_of_offeredInit (rstIn_of_noReset hs.noReset) hi hh
  obtain ⟨h, hrun⟩ := (leads_acceptInit s n f).run 1 rest (undisturbed_of_env_drop 1 hs rfl rfl)
  refine ⟨h, ?_⟩
  rw [← ticksLeft_acceptInit_succ s n f, runTicks_succ _ s _ hstep, hrun, Nat.add_comm 1]

theorem dn_initialized (s : State) (n f : Bool) : (s.initialized n f).dn = lo (functionSetByte s.params n f) :=
  dn_of_bits _ _ rfl rfl rfl rfl

/-- Settles O30: the run ends in `State.initialized`, and the rule's end state is read off it. -/
theorem initAsAWhole : Obligations.InitAsAWhole := by
  intro s n f rest hn hf hi hh
  obtain ⟨h, hrun⟩ := runTicks_of_offeredInit ⟨hn, hf⟩ hi hh
  refine ⟨_, hrun, ?_, rfl, rfl, rfl, rfl, rfl, rfl, rfl, dn_initialized s n f, rfl, rfl, rfl, rfl, rfl, rfl, rfl, rfl⟩
  simp only [State.elapsed, State.initialized, initEvents, byteEvents, List.append_assoc, List.cons_append, List.nil_append]

/-! ### An equal `INIT` again -/

theorem BusyOf.host {s u : State} (h : BusyOf s u) : u.host = s.host := by
  cases h <;> rfl

/-- An offer stands as long as the engine is busy (R33). -/
theorem host_of_busyRun {w : ReqWord} {rest : List HostAct} {j : Nat} {s t : State} (hn : s.noReset = true)
    (hh : s.host = .offer w :: rest) (hj : j ≤ s.ticksLeft) (hrun : runTicks j s = .next t) : t.host = .offer w :: rest := by
  induction j generalizing s with
  | zero =>
    cases hrun
    exact hh
  | succ j ih =>
    have hb : s.ph ≠ .idle := fun hi => by simp [(ticksLeft_eq_zero_iff s).mpr hi] at hj
    have hstep := step_of_busy s (rstIn_of_noReset hn) hb
    have hdown := everyBusyTickCountsDown s _ (rstIn_of_noReset hn) hb hstep
    rw [runTicks_succ j s _ hstep] at hrun
    refine ih (noReset_of_busyStep hn hb hstep) ?_ (by omega) hrun
    rw [endTick_of_busy s _ hb, (busyOf_engineTick hb).host, hh]
    rfl

/-- The next offer still stands when an `INIT` is over. -/
theorem host_of_initRun {s t : State} {n f : Bool} {w : ReqWord} {rest : List HostAct} (hs : s.Undisturbed) (hi : s.ph = .idle)
    (hh : s.host = .offer (encodeRequest (.init n f)) :: .offer w :: rest) (hrun : runTicks (initTicks s.params) s = .next t) :
    t.host = .offer w :: rest := by
  have hstep := step_of_offeredInit (rstIn_of_noReset hs.noReset) hi hh
  have hn : ((acceptInit n f s).elapsed 1 (.offer w :: rest)).noReset = true := noReset_of_env_drop 1 hs.noReset rfl
  rw [← ticksLeft_acceptInit_succ s n f, runTicks_succ _ s _ hstep] at hrun
  exact host_of_busyRun hn rfl le_rfl hrun

/-- Settles O31: every register that an `INIT` writes ends in a value made of its arguments and the parameters (`State.initialized`), so
the second run, from the end of the first, writes what is there already. -/
theorem repeatedInitIsIdempotentInEffect : Obligations.RepeatedInitIsIdempotentInEffect := by
  intro s n f rest hn hf hi hh
  obtain ⟨g, hfirst⟩ := runTicks_of_offeredInit ⟨hn, hf⟩ hi hh
  have hhost := host_of_initRun ⟨hn, hf⟩ hi hh hfirst
  have hquiet : ((s.initialized n f).elapsed (initTicks s.params) g).Undisturbed :=
    undisturbed_of_env_drop (initTicks s.params) ⟨hn, hf⟩ rfl rfl
  obtain ⟨h, hsecond⟩ := runTicks_of_offeredInit hquiet rfl hhost
  exact ⟨_, _, initEvents s.params n f, initNibbles s.params n f, hfirst, hsecond, rfl, rfl, rfl, rfl, rfl, rfl⟩

end Sys2Proof.Machine
end

section
/-! PROOFS. `CMD` and `DATA` (R150 to R153): the acceptance of a byte, and its run to the end that its operation gives it. -/

namespace Sys2Proof.Machine

/-! ### The acceptance of a byte -/

theorem exec_cmd_of_ready {s : State} (hi : s.ph = .idle) (hd : s.inited = true) (b : Byte) :
    exec (.cmd b) s = .next (acceptByte .cmd false b s) :=
  congrArg _ (whenIdle_whenReady hi hd _)

theorem exec_data_of_ready {s : State} (hi : s.ph = .idle) (hd : s.inited = true) (b : Byte) :
    exec (.data b) s = .next (acceptByte .data true b s) :=
  congrArg _ (whenIdle_whenReady hi hd _)

/-- Settles O9: the mode check passes, and the acceptance writes what R150 and R151 write. -/
theorem cmdAndDataAreAccepted : Obligations.CmdAndDataAreAccepted :=
  fun _ b hi hd => ⟨exec_cmd_of_ready hi hd b, exec_data_of_ready hi hd b⟩

/-- The request that sends `b` at `level` is accepted as one of the two (R150, R151). -/
theorem exec_byte_of_ready {s : State} (hi : s.ph = .idle) (hd : s.inited = true) (level : Bool) (b : Byte) :
    ∃ op, (op = .cmd ∨ op = .data) ∧
      exec (if level then .data b else .cmd b) s = .next (acceptByte op level b s) := by
  cases level with
  | false => exact ⟨.cmd, .inl rfl, exec_cmd_of_ready hi hd b⟩
  | true => exact ⟨.data, .inr rfl, exec_data_of_ready hi hd b⟩

/-- The acceptance tick of a held request that sends a byte, which consumes the offer (R33, R150, R151, R165, R170). -/
theorem step_of_offeredByte {s : State} {i : Instr} {op : Opc} {level : Bool} {b : Byte} {rest : List HostAct}
    (hr : s.rstIn = false) (hi : s.ph = .idle) (hq : i.isRequest = true) (hh : s.host = .offer (encodeRequest i) :: rest)
    (hx : exec i s = .next (acceptByte op level b s)) : step s = .next ((acceptByte op level b s).elapsed 1 rest) := by
  obtain ⟨t, hexec, hstep⟩ := stepRunsTheOfferedRequest s _ rest i hr hi (.inl hh) (decodeRequest_encodeRequest hq)
  cases hx.symm.trans hexec
  rw [hstep, latched_of_steady s (acceptByte op level b s) (.inr rfl), ← List.drop_one]
  rfl

/-! ### The run of a byte -/

/-- The registers and ghosts in the last tick of the gap after `b` was sent for the operation `op` (R152). -/
def State.byteSent (s : State) (op : Opc) (level : Bool) (b : Byte) : State :=
  { s with
    rs := level, en := false, d4 := (lo b).getLsbD 0, d5 := (lo b).getLsbD 1, d6 := (lo b).getLsbD 2, d7 := (lo b).getLsbD 3
    ph := .gap, opc := op, seq := 4#3, nib := true, byte := b, rsq := level, dly := 0
    trace := s.trace ++ byteEvents level b, lat := s.lat ++ byteNibbles level b }

/-- What the two pulses of a byte leave, written out (R152). -/
theorem sentByte_atGap_eq_byteSent (s : State) (op : Opc) (level : Bool) (b : Byte) :
    (State.sentByte { s with opc := op } level b).atGap 4#3 true level b = s.byteSent op level b := by
  have htrace : (State.sentByte { s with opc := op } level b).trace = s.trace ++ byteEvents level b := List.append_assoc ..
  have hlat : (State.sentByte { s with opc := op } level b).lat = s.lat ++ byteNibbles level b := List.append_assoc ..
  rw [State.byteSent, ← htrace, ← hlat]
  rfl

/-- The end of a byte does not look at the inputs. -/
theorem endOfByte_elapsed (s : State) (j : Nat) (h : List HostAct) :
    endOfByte (s.elapsed j h) = (endOfByte s).elapsed j h := by
  have hopc : (s.elapsed j h).opc = s.opc := rfl
  unfold endOfByte
  rw [hopc]
  split <;> rfl

theorem endOfByte_en (s : State) : (endOfByte s).en = s.en := by
  unfold endOfByte
  split <;> rfl

/-- `CMD`, `DATA` and `DISPCTL` have nothing left to do when the byte is sent (R120, R157, R171). -/
theorem endOfByte_of_noTail {s : State} (h : s.opc = .cmd ∨ s.opc = .data ∨ s.opc = .dispctl) :
    endOfByte s = { s with ph := .idle } := by
  rcases h with h | h | h <;> rw [endOfByte, h]

/-- The high half of an accepted byte, and the low half chosen (R120, R152). The acceptance leaves `DLY` as it was, so that its pulse
starts in no `State.atPulse`. -/
theorem leads_acceptedHighHalf (s : State) (op : Opc) (level : Bool) (b : Byte) :
    Leads (pulseTicks s.params .settle) (acceptByte op level b s)
      ((State.sent { s with opc := op } level (hi b) .settle).atPulse 4#3 true level b) := by
  have hbyte : 4#3 ≤ (acceptByte op level b s).seq := BitVec.le_refl 4#3
  have hpulse := leads_pulse (s := acceptByte op level b s) rfl
  rw [State.pulsed, gapKind_of_byte hbyte] at hpulse
  have hexit : Leads 1 ((State.sent { s with opc := op } level (hi b) .settle).atGap 4#3 false level b)
      ((State.sent { s with opc := op } level (hi b) .settle).atPulse 4#3 true level b) :=
    leads_gapExit rfl rfl (fun _ _ => exitGap_of_highHalf hbyte rfl) rfl
  exact hpulse.trans hexit

/-- An accepted byte, high half first, and the end that its operation gives it (R120, R152). -/
theorem leads_acceptByte (s : State) (op : Opc) (level : Bool) (b : Byte) :
    Leads (2 * pulseTicks s.params .settle) (acceptByte op level b s) (endOfByte (s.byteSent op level b)) := by
  have hbyte : 4#3 ≤ 4#3 := BitVec.le_refl 4#3
  have hend : ∀ j g, exitGap (((State.sentByte { s with opc := op } level b).atGap 4#3 true level b).elapsed j g) =
      (endOfByte (s.byteSent op level b)).elapsed j g := by
    intro j g
    rw [sentByte_atGap_eq_byteSent, exitGap_of_lowHalf hbyte rfl, endOfByte_elapsed]
  have hlow : Leads (pulseTicks s.params .settle)
      ((State.sent { s with opc := op } level (hi b) .settle).atPulse 4#3 true level b) (endOfByte (s.byteSent op level b)) :=
    leads_atPulse (n := lo b) rfl (gapKind_of_byte hbyte) hend (endOfByte_en (s.byteSent op level b))
  rw [Nat.two_mul]
  exact (leads_acceptedHighHalf s op level b).trans hlow

/-- A request that sends a byte, offered to an engine that accepts it, to the end of the byte (R152, R153). -/
theorem runTicks_of_offeredByte {s : State} {i : Instr} {op : Opc} {level : Bool} {b : Byte} {rest : List HostAct}
    (hs : s.Undisturbed) (hi : s.ph = .idle) (hq : i.isRequest = true) (hh : s.host = .offer (encodeRequest i) :: rest)
    (hx : exec i s = .next (acceptByte op level b s)) :
    ∃ h, runTicks (2 * s.params.tPw + 2 * s.params.tSettle + 13) s =
      .next ((endOfByte (s.byteSent op level b)).elapsed (2 * s.params.tPw + 2 * s.params.tSettle + 13) h) := by
  have hstep := step_of_offeredByte (rstIn_of_noReset hs.noReset) hi hq hh hx
  obtain ⟨h, hrun⟩ := (leads_acceptByte s op level b).run 1 rest (undisturbed_of_env_drop 1 hs rfl rfl)
  have hticks : 2 * s.params.tPw + 2 * s.params.tSettle + 13 = 2 * pulseTicks s.params .settle + 1 := by
    simp only [pulseTicks, waitTicks]
    omega
  refine ⟨h, ?_⟩
  rw [hticks, runTicks_succ _ s _ hstep, hrun, Nat.add_comm 1]

/-! ### What a byte leaves behind -/

theorem dn_byteSent (s : State) (op : Opc) (level : Bool) (b : Byte) : (s.byteSent op level b).dn = lo b :=
  dn_of_bits _ _ rfl rfl rfl rfl

/-- The two halves of a byte make it up again (R92). -/
theorem hi_append_lo (b : Byte) : hi b ++ lo b = b :=
  (BitVec.extractLsb'_append_extractLsb'_eq_extractLsb' rfl).trans BitVec.extractLsb'_eq_self

/-- The nibbles of a byte pair to the byte, whatever is latched after them (R48, R64). -/
theorem pairNibbles_byteNibbles_append (level : Bool) (b : Byte) (ns : List (Bool × Nibble)) :
    pairNibbles (byteNibbles level b ++ ns) = (pairNibbles ns).map (fun bs => (level, b) :: bs) := by
  simp only [byteNibbles, List.cons_append, List.nil_append, pairNibbles, if_true, hi_append_lo]

/-- Settles O27: the run ends in `State.byteSent` with the engine idle again, and the rule's end state is read off it. -/
theorem byteTransferAsAWhole : Obligations.ByteTransferAsAWhole := by
  intro s b level rest hn hf hi hd hh
  obtain ⟨op, ho, hx⟩ := exec_byte_of_ready hi hd level b
  have hq : Instr.isRequest (if level then .data b else .cmd b) = true := by cases level <;> rfl
  obtain ⟨h, hrun⟩ := runTicks_of_offeredByte ⟨hn, hf⟩ hi hq hh hx
  rw [endOfByte_of_noTail (s := s.byteSent op level b) (ho.imp_right .inl)] at hrun
  exact ⟨_, hrun, rfl, rfl, pairNibbles_byteNibbles_append level b [], rfl, rfl, rfl, dn_byteSent s op level b,
    rfl, rfl, rfl, rfl, rfl, rfl, rfl, rfl, rfl, rfl⟩

end Sys2Proof.Machine
end

section
/-! PROOFS. `CLEAR` and `DISPCTL` (R165 to R171): both send a byte as `CMD` does; the operation, not the byte, then says whether the long
wait follows (R173(e)). -/

namespace Sys2Proof.Machine

/-! ### The acceptance -/

theorem exec_clear_of_ready {s : State} (hi : s.ph = .idle) (hd : s.inited = true) :
    exec .clear s = .next (acceptByte .clear false s.params.clearCode s) :=
  congrArg _ (whenIdle_whenReady hi hd _)

theorem exec_dispctl_of_ready {s : State} (hi : s.ph = .idle) (hd : s.inited = true) (d c k : Bool) :
    exec (.dispctl d c k) s = .next (acceptByte .dispctl false (displayControlByte s.params d c k) s) :=
  congrArg _ (whenIdle_whenReady hi hd _)

/-- Settles O10: the mode check passes, and the acceptance writes what R165 and R170 write. -/
theorem clearAndDispctlAreAccepted : Obligations.ClearAndDispctlAreAccepted :=
  fun _ d c k hi hd => ⟨exec_clear_of_ready hi hd, exec_dispctl_of_ready hi hd d c k⟩

/-! ### The long wait -/

/-- The ticks in which a wait phase counts down (R35). -/
theorem leads_counting {s : State} (hw : s.ph.waits = true) : Leads s.dly s { s with dly := 0 } := by
  refine ⟨rfl, rfl, fun j g hs => ?_⟩
  obtain ⟨h, hrun⟩ := runTicks_of_counting (s := s.elapsed j g) hs.noReset hw s.dly le_rfl
  refine ⟨h, hrun.trans ?_⟩
  rw [← elapsed_elapsed _ j s.dly g h]
  simp only [State.counted, State.elapsed, Nat.sub_self]

/-- The tick that leaves the long wait (R166). -/
theorem leads_longExit {s : State} (hp : s.ph = .long) (hd : s.dly = 0) : Leads 1 s { s with ph := .idle } := by
  refine ⟨rfl, rfl, fun j g hs => ⟨hostNext false g, ?_⟩⟩
  obtain ⟨-, -, -, hlongEnds⟩ := waitPhasesCountAndLeave (s.elapsed j g) (rstIn_of_noReset hs.noReset)
  exact runTicks_snoc rfl (hlongEnds hd hp)

/-- The long wait, to the idle engine (R166). -/
theorem leads_longWait {s : State} (hp : s.ph = .long) : Leads (s.dly + 1) s { s with dly := 0, ph := .idle } :=
  (leads_counting (by rw [hp]; rfl)).trans (leads_longExit hp rfl)

/-- After the byte of a `CLEAR` the long wait is loaded (R120, R165). -/
theorem endOfByte_of_clear {s : State} (h : s.opc = .clear) : endOfByte s = enterWait .long .long s := by
  rw [endOfByte, h]

/-! ### The two requests as a whole -/

/-- The registers and ghosts at the end of a `CLEAR` accepted in `s` (R167). -/
def State.cleared (s : State) : State :=
  { s.byteSent .clear false s.params.clearCode with
    ph := .idle, trace := s.trace ++ byteEvents false s.params.clearCode ++ [.wait .long] }

/-- From the end of the byte of a `CLEAR` to the end of the request: the long wait. -/
theorem leads_cleared (s : State) :
    Leads (s.params.tLong + 1) (endOfByte (s.byteSent .clear false s.params.clearCode)) s.cleared := by
  rw [endOfByte_of_clear rfl]
  exact leads_longWait (s := enterWait .long .long (s.byteSent .clear false s.params.clearCode)) rfl

/-- `CLEAR` offered to a ready engine, to its end: the byte, then the long wait (R167). -/
theorem runTicks_of_offeredClear {s : State} {rest : List HostAct} (hs : s.Undisturbed) (hi : s.ph = .idle)
    (hd : s.inited = true) (hh : s.host = .offer (encodeRequest .clear) :: rest) :
    ∃ h, runTicks (2 * s.params.tPw + 2 * s.params.tSettle + s.params.tLong + 14) s =
      .next (s.cleared.elapsed (2 * s.params.tPw + 2 * s.params.tSettle + s.params.tLong + 14) h) := by
  have hticks : 2 * s.params.tPw + 2 * s.params.tSettle + s.params.tLong + 14 =
      2 * s.params.tPw + 2 * s.params.tSettle + 13 + (s.params.tLong + 1) := by omega
  obtain ⟨g, hbyte⟩ := runTicks_of_offeredByte hs hi rfl hh (exec_clear_of_ready hi hd)
  obtain ⟨h, hwait⟩ := (leads_cleared s).run _ g (undisturbed_of_env_drop _ hs rfl rfl)
  exact ⟨h, by rw [hticks, runTicks_add _ _ _ _ hbyte, hwait]⟩

/-- Settles O28: the run ends in `State.cleared`, and the rule's end state is read off it. -/
theorem clearAsAWhole : Obligations.ClearAsAWhole := by
  refine ⟨by decide, fun s rest hn hf hi hd hh => ?_⟩
  obtain ⟨h, hrun⟩ := runTicks_of_offeredClear ⟨hn, hf⟩ hi hd hh
  have htrace : s.cleared.trace = s.trace ++ (byteEvents false s.params.clearCode ++ [.wait .long]) := List.append_assoc ..
  exact ⟨_, hrun, htrace, rfl, rfl, rfl, rfl, dn_byteSent s .clear false s.params.clearCode, rfl, rfl, rfl, rfl, rfl, rfl, rfl, rfl⟩

/-- Settles O29: the run ends in `State.byteSent` with the engine idle again, no wait after it, and the rule's end state is read off. -/
theorem dispctlAsAWhole : Obligations.DispctlAsAWhole := by
  refine ⟨by decide, fun s d c k rest hn hf hi hd hh => ?_⟩
  obtain ⟨h, hrun⟩ := runTicks_of_offeredByte ⟨hn, hf⟩ hi rfl hh (exec_dispctl_of_ready hi hd d c k)
  rw [endOfByte_of_noTail (.inr (.inr rfl))] at hrun
  exact ⟨_, hrun, rfl, rfl, rfl, rfl, rfl, dn_byteSent s .dispctl false (displayControlByte s.params d c k),
    rfl, rfl, rfl, rfl, rfl, rfl, rfl, rfl, rfl⟩

end Sys2Proof.Machine
end

section
/-! PROOFS. The Display Session (44_display_session.md): which calls write `DISP`, what the tick does in which a call begins, and what the
serial lines make the host offer (R180, R182, R187, R188, R189, R207). -/

namespace Sys2Proof.Machine

/-! ### Who writes `DISP` -/

/-- A busy engine does not write `DISP` (R180). -/
theorem BusyOf.disp {s u : State} (h : BusyOf s u) : u.disp = s.disp := by
  cases h <;> rfl

/-- No request writes `DISP` (R180). -/
theorem AskedOf.disp {s u : State} {i : Instr} (h : AskedOf s i u) : u.disp = s.disp := by
  cases h <;> rfl

theorem idleTick_disp (s : State) : (idleTick s).disp = s.disp := by
  rcases idleTick_cases s with h | h <;> rw [h]

theorem sessionCalls_of_idle {s : State} (hi : s.ph = .idle) :
    sessionCalls s = { s with host := (beginCalls s.host s.disp).1, disp := (beginCalls s.host s.disp).2 } :=
  if_pos hi

/-- A tick without reset leaves `DISP` as it was, or began in `IDLE` and leaves what the calls that began in it wrote. -/
theorem disp_of_step {s t : State} (hr : s.rstIn = false) (h : step s = .next t) :
    t.disp = s.disp ∨ s.ph = .idle ∧ t.disp = (beginCalls s.host s.disp).2 := by
  cases tickOf_of_step h with
  | reset hrst => exact absurd hrst (by simp [hr])
  | busy _ hb => exact .inl (busyOf_engineTick hb).disp
  | unasked _ hi hq => exact .inr ⟨hi, (idleTick_disp _).trans (congrArg State.disp (sessionCalls_of_idle hi))⟩
  | asked i u _ hi hq hu => exact .inr ⟨hi, (askedOf_of_exec hq hu).disp.trans (congrArg State.disp (sessionCalls_of_idle hi))⟩

/-- Settles O55: the engine leaves `DISP` alone, and of the calls that begin only a display call writes it. -/
theorem onlySessionDisplayWritesDisp : Obligations.OnlySessionDisplayWritesDisp := by
  intro s t hr h hne
  obtain hsame | ⟨hi, hdisp⟩ := disp_of_step hr h
  · exact absurd hsame hne
  · obtain hkept | ⟨d, c, k, before, after, hhost, hbefore, hwrite⟩ := beginCalls_disp s.host s.disp
    · exact absurd (hdisp.trans hkept) hne
    · exact ⟨hi, d, c, k, before, after, hhost, hbefore, hdisp.trans hwrite⟩

/-! ### The tick in which a call begins -/

/-- An idle engine with the requests `reqs` on its port, `DISP` written already: what a call leaves to the engine (log 7). -/
def State.asking (s : State) (reqs : List Instr) (rest : List HostAct) (x : Disp) : State :=
  { s with host := offers reqs ++ rest, disp := x }

/-- A tick without reset is determined by what the calls that begin in it leave. -/
theorem step_congr {s t : State} (hs : s.rstIn = false) (ht : t.rstIn = false) (h : sessionCalls s = sessionCalls t) :
    step s = step t := by
  simp only [step, hs, ht, h, Bool.false_eq_true, if_false]

/-- A call that offers something begins: the tick is that of its first offer, with `DISP` as the call leaves it (R182, R183, R184). -/
theorem step_of_call {s : State} {o : SessionOp} {i : Instr} {is : List Instr} {rest : List HostAct} (hr : s.rstIn = false)
    (hi : s.ph = .idle) (hh : s.host = .call o :: rest) (ho : o.requests = i :: is) :
    step s = step (s.asking (i :: is) rest (o.dispAfter s.disp)) := by
  have hbegin : beginCalls s.host s.disp = (offers (i :: is) ++ rest, o.dispAfter s.disp) := by
    rw [hh, beginCalls, ho]
  refine step_congr hr hr ?_
  rw [sessionCalls_of_offer (s.asking (i :: is) rest _) _ _ rfl, sessionCalls_of_idle hi, hbegin]
  rfl

/-- The tick of a call with one request, which is accepted and sends a byte (R182, R184). -/
theorem step_of_acceptedCall {s : State} {o : SessionOp} {i : Instr} {op : Opc} {b : Byte} {rest : List HostAct}
    (hr : s.rstIn = false) (hi : s.ph = .idle) (hh : s.host = .call o :: rest) (ho : o.requests = [i]) (hq : i.isRequest = true)
    (hx : exec i (s.asking [i] rest (o.dispAfter s.disp)) = .next (acceptByte op false b (s.asking [i] rest (o.dispAfter s.disp)))) :
    step s = .next ((acceptByte op false b { s with disp := o.dispAfter s.disp }).elapsed 1 rest) := by
  rw [step_of_call hr hi hh ho]
  exact step_of_offeredByte (s := s.asking [i] rest _) hr hi hq rfl hx

/-- A request other than `INIT` is dropped by an idle engine that is not initialized (R207). -/
theorem exec_of_unready {s : State} {i : Instr} (hi : s.ph = .idle) (hd : s.inited = false) (hq : i.isRequest = true)
    (hne : ∀ n f, i ≠ .init n f) : exec i s = .next { s with seqErr := true } := by
  have hdrop : ∀ accept, whenIdle (whenReady accept) s = { s with seqErr := true } := by
    intro accept
    rw [whenIdle_of_idle _ s hi, whenReady, if_neg (Bool.eq_false_iff.mp hd)]
    rfl
  match i, hq with
  | .init n f, _ => exact absurd rfl (hne n f)
  | .cmd _, _ | .data _, _ | .clear, _ | .dispctl _ _ _, _ => exact congrArg _ (hdrop _)

/-- The tick of a held request that is dropped: its flag, and the offer consumed (R207, R33). -/
theorem step_of_droppedRequest {s : State} {i : Instr} {rest : List HostAct} (hr : s.rstIn = false) (hi : s.ph = .idle)
    (hd : s.inited = false) (hq : i.isRequest = true) (hne : ∀ n f, i ≠ .init n f)
    (hh : s.host = .offer (encodeRequest i) :: rest) : step s = .next (State.elapsed { s with seqErr := true } 1 rest) := by
  obtain ⟨t, hexec, hstep⟩ := stepRunsTheOfferedRequest s _ rest i hr hi (.inl hh) (decodeRequest_encodeRequest hq)
  cases (exec_of_unready hi hd hq hne).symm.trans hexec
  rw [hstep, latched_of_steady s { s with seqErr := true } (.inr rfl), ← List.drop_one]
  rfl

/-- The tick of a call with one request, which is dropped (R207). -/
theorem step_of_droppedCall {s : State} {o : SessionOp} {i : Instr} {rest : List HostAct} (hr : s.rstIn = false)
    (hi : s.ph = .idle) (hh : s.host = .call o :: rest) (ho : o.requests = [i]) (hq : i.isRequest = true)
    (hne : ∀ n f, i ≠ .init n f) (hd : s.inited = false) :
    step s = .next (State.elapsed { s with disp := o.dispAfter s.disp, seqErr := true } 1 rest) := by
  rw [step_of_call hr hi hh ho]
  exact step_of_droppedRequest (s := s.asking [i] rest _) hr hi hd hq hne rfl

/-- `S.DISPLAY` called on an idle, ready engine (R182). -/
theorem step_of_displayCall {s : State} {d c k : Bool} {rest : List HostAct} (hr : s.rstIn = false) (hi : s.ph = .idle)
    (hd : s.inited = true) (hh : s.host = .call (.display d c k) :: rest) :
    step s = .next
      ((acceptByte .dispctl false (displayControlByte s.params d c k) { s with disp := ⟨d, c, k⟩ }).elapsed 1 rest) :=
  step_of_acceptedCall (o := .display d c k) hr hi hh rfl rfl
    (exec_dispctl_of_ready (s := s.asking _ rest _) hi hd d c k)

/-- `S.CLEAR` called on an idle, ready engine (R184). -/
theorem step_of_clearCall {s : State} {rest : List HostAct} (hr : s.rstIn = false) (hi : s.ph = .idle) (hd : s.inited = true)
    (hh : s.host = .call .clear :: rest) :
    step s = .next ((acceptByte .clear false s.params.clearCode s).elapsed 1 rest) :=
  step_of_acceptedCall (o := .clear) hr hi hh rfl rfl (exec_clear_of_ready (s := s.asking _ rest _) hi hd)

/-- Settles O52: the call's tick is that of its offer, which is accepted or dropped. -/
theorem sessionDisplayRecordsAndOffers : Obligations.SessionDisplayRecordsAndOffers := by
  intro s d c k rest hr hi hh
  refine ⟨rfl, fun hd => ?_, fun hd => ?_⟩
  · rw [step_of_displayCall hr hi hd hh, ← List.drop_one]
    rfl
  · rw [step_of_droppedCall hr hi hh rfl rfl nofun hd, ← List.drop_one]
    rfl

/-! ### The serial lines -/

theorem serialHost_append (ls ms : List SerialLine) : serialHost (ls ++ ms) = serialHost ls ++ serialHost ms := by
  simp only [serialHost, List.flatMap_append, List.map_append]

/-- Settles O56: the host's list is made line by line, and a text's requests byte by byte. -/
theorem serialLinesExpandToRequests : Obligations.SerialLinesExpandToRequests := by
  intro text before after
  refine ⟨?_, rfl, ?_⟩
  · rw [serialHost_append, serialHost_append]
    rfl
  · rw [SessionOp.requests, List.map_map]
    rfl

end Sys2Proof.Machine
end

section
/-! PROOFS. Session calls as a whole (R183, R185, R254): what a call has still to offer waits while the engine is busy with the request
before, so the runs of the requests follow each other. -/

namespace Sys2Proof.Machine

/-! ### What a busy run keeps -/

/-- What every busy tick keeps, a run within `ticksLeft` keeps. -/
theorem kept_of_busyRun {P : State → Prop} (hP : ∀ s u, BusyOf s u → P s → P (endTick s u)) {j : Nat} {s t : State}
    (hn : s.noReset = true) (hj : j ≤ s.ticksLeft) (hs : P s) (hrun : runTicks j s = .next t) : P t := by
  induction j generalizing s with
  | zero =>
    cases hrun
    exact hs
  | succ j ih =>
    have hb : s.ph ≠ .idle := fun hi => by simp [(ticksLeft_eq_zero_iff s).mpr hi] at hj
    have hstep := step_of_busy s (rstIn_of_noReset hn) hb
    have hdown := everyBusyTickCountsDown s _ (rstIn_of_noReset hn) hb hstep
    rw [runTicks_succ j s _ hstep] at hrun
    exact ih (noReset_of_busyStep hn hb hstep) (by omega) (hP s _ (busyOf_engineTick hb) hs) hrun

/-- Offers at the head of the host's list stand while the port is not read (R33). -/
theorem offers_prefix_hostNext {reqs : List Instr} {h : List HostAct} (hp : offers reqs <+: h) : offers reqs <+: hostNext false h := by
  cases reqs with
  | nil => exact List.nil_prefix
  | cons i is =>
    obtain ⟨rest, rfl⟩ := hp
    exact ⟨rest, rfl⟩

theorem offers_prefix_of_busyRun {reqs : List Instr} {j : Nat} {s t : State} (hn : s.noReset = true)
    (hp : offers reqs <+: s.host) (hj : j ≤ s.ticksLeft) (hrun : runTicks j s = .next t) : offers reqs <+: t.host := by
  refine kept_of_busyRun (P := fun r => offers reqs <+: r.host) (fun s u hb hs => ?_) hn hj hp hrun
  rw [endTick_of_busy s u hb.ph_ne_idle, hb.host]
  exact offers_prefix_hostNext hs

/-! ### `S.WRITE` -/

/-- The ticks of one data byte, its acceptance counted (R153). -/
def byteTicks (c : Cfg) : Nat := 2 * c.tPw + 2 * c.tSettle + 13

/-- From `s` the engine has sent `text` as data and is ready again, with `DISP` as it was (R183, R188). -/
structure Wrote (s : State) (text : List Byte) (t : State) : Prop where
  params : t.params = s.params
  idle : t.ph = .idle
  inited : t.inited = true
  disp : t.disp = s.disp
  trace : t.trace = s.trace ++ text.flatMap (byteEvents true)
  lat : t.lat = s.lat ++ text.flatMap (byteNibbles true)

theorem wrote_nil {s : State} (hi : s.ph = .idle) (hd : s.inited = true) : Wrote s [] s :=
  ⟨rfl, hi, hd, rfl, (List.append_nil _).symm, (List.append_nil _).symm⟩

theorem Wrote.cons {s r t : State} {b : Byte} {bs : List Byte} (h₁ : Wrote s [b] r) (h₂ : Wrote r bs t) : Wrote s (b :: bs) t where
  params := h₂.params.trans h₁.params
  idle := h₂.idle
  inited := h₂.inited
  disp := h₂.disp.trans h₁.disp
  trace := by rw [h₂.trace, h₁.trace, List.append_assoc, ← List.flatMap_append, List.singleton_append]
  lat := by rw [h₂.lat, h₁.lat, List.append_assoc, ← List.flatMap_append, List.singleton_append]

/-- While a byte of a text is sent, the offers of the others stand (R33). -/
theorem offers_prefix_of_dataRun {s t : State} {b : Byte} {reqs : List Instr} {rest : List HostAct} (hn : s.noReset = true)
    (hi : s.ph = .idle) (hd : s.inited = true) (hh : s.host = .offer (encodeRequest (.data b)) :: (offers reqs ++ rest))
    (hrun : runTicks (byteTicks s.params) s = .next t) : offers reqs <+: t.host := by
  have hstep := step_of_offeredByte (rstIn_of_noReset hn) hi rfl hh (exec_data_of_ready hi hd b)
  have hleft : byteTicks s.params = (acceptByte .data true b s).ticksLeft + 1 := by
    rw [ticksLeft_acceptByte, byteTicks, pulseTicks, waitTicks, tailTicks, if_neg (by decide)]
    omega
  rw [hleft, runTicks_succ _ s _ hstep] at hrun
  exact offers_prefix_of_busyRun (s := (acceptByte .data true b s).elapsed 1 (offers reqs ++ rest)) (noReset_of_env_drop 1 hn rfl)
    ⟨rest, rfl⟩ le_rfl hrun

/-- One byte of a text: it is sent, and the offers behind it are still to come. -/
theorem runTicks_of_offeredData {s : State} {b : Byte} {bs : List Byte} (hs : s.Undisturbed) (hi : s.ph = .idle)
    (hd : s.inited = true) (hh : offers ((b :: bs).map .data) <+: s.host) :
    ∃ r, runTicks (byteTicks s.params) s = .next r ∧ Wrote s [b] r ∧ r.Undisturbed ∧ offers (bs.map .data) <+: r.host := by
  obtain ⟨rest, hrest⟩ := hh
  have hx := exec_data_of_ready hi hd b
  obtain ⟨h, hrun⟩ := runTicks_of_offeredByte hs hi rfl hrest.symm hx
  rw [endOfByte_of_noTail (.inr (.inl rfl))] at hrun
  refine ⟨_, hrun, ⟨rfl, rfl, hd, rfl, ?_, ?_⟩, undisturbed_of_env_drop _ hs rfl rfl, ?_⟩
  · exact congrArg (s.trace ++ ·) (List.append_nil _).symm
  · exact congrArg (s.lat ++ ·) (List.append_nil _).symm
  · exact offers_prefix_of_dataRun hs.noReset hi hd hrest.symm hrun

/-- A text whose bytes are on offer, by induction on the text. -/
theorem runTicks_of_offeredText (text : List Byte) {s : State} (hs : s.Undisturbed) (hi : s.ph = .idle) (hd : s.inited = true)
    (hh : offers (text.map .data) <+: s.host) :
    ∃ t, runTicks (text.length * byteTicks s.params) s = .next t ∧ Wrote s text t := by
  induction text generalizing s with
  | nil => exact ⟨s, by rw [List.length_nil, Nat.zero_mul, runTicks_zero], wrote_nil hi hd⟩
  | cons b bs ih =>
    obtain ⟨r, hbyte, hwrote, hr, hoffers⟩ := runTicks_of_offeredData hs hi hd hh
    obtain ⟨t, hrun, htail⟩ := ih hr hwrote.idle hwrote.inited hoffers
    refine ⟨t, ?_, hwrote.cons htail⟩
    rw [List.length_cons, Nat.succ_mul, Nat.add_comm, runTicks_add _ _ _ _ hbyte, ← hwrote.params, hrun]

/-- Two runs of the same length that agree in their first tick agree. -/
theorem runTicks_congr {k : Nat} {s t : State} (hk : 0 < k) (h : step s = step t) : runTicks k s = runTicks k t := by
  cases k with
  | zero => exact absurd hk (Nat.lt_irrefl 0)
  | succ k => rw [runTicks, runTicks, h]

/-- A text whose call stands at the head: its first tick is that of its first offer. -/
theorem runTicks_of_writeCall {s : State} {text : List Byte} {rest : List HostAct} (hs : s.Undisturbed) (hi : s.ph = .idle)
    (hd : s.inited = true) (hh : s.host = .call (.write text) :: rest) :
    ∃ t, runTicks (text.length * byteTicks s.params) s = .next t ∧ Wrote s text t := by
  cases text with
  | nil => exact runTicks_of_offeredText [] hs hi hd List.nil_prefix
  | cons b bs =>
    have hpos : 0 < (b :: bs).length * byteTicks s.params := Nat.mul_pos (Nat.succ_pos _) (Nat.succ_pos _)
    obtain ⟨t, hrun, hwrote⟩ := runTicks_of_offeredText (b :: bs) (s := s.asking ((b :: bs).map .data) rest s.disp)
      (undisturbed_of_env_drop 0 hs rfl rfl) hi hd ⟨rest, rfl⟩
    refine ⟨t, ?_, hwrote.params, hwrote.idle, hwrote.inited, hwrote.disp, hwrote.trace, hwrote.lat⟩
    exact (runTicks_congr hpos (step_of_call (rstIn_of_noReset hs.noReset) hi hh rfl)).trans hrun

/-- The nibbles of a text sent as data pair to the text (R48, R64). -/
theorem pairNibbles_flatMap_byteNibbles (text : List Byte) :
    pairNibbles (text.flatMap (byteNibbles true)) = some (text.map (fun b => (true, b))) := by
  induction text with
  | nil => rfl
  | cons b bs ih => rw [List.flatMap_cons, pairNibbles_byteNibbles_append, ih, Option.map_some, List.map_cons]

/-- Settles O53: the run of the text ends in a state that `Wrote` it, whose nibbles pair to it. -/
theorem sessionWriteSendsExactlyTheText : Obligations.SessionWriteSendsExactlyTheText := by
  intro s text rest hn hf hi hd hh
  obtain ⟨t, hrun, hwrote⟩ := runTicks_of_writeCall ⟨hn, hf⟩ hi hd hh
  exact ⟨t, hrun, hwrote.idle, hwrote.trace, ⟨_, hwrote.lat, pairNibbles_flatMap_byteNibbles text⟩, hwrote.inited, hwrote.disp⟩

/-! ### `S.CLEAR`, then `S.DISPLAY` -/

/-- What the run of a request other than `INIT` carries from the tick `s` to the tick `t`, failing writes or not: the registers that no
phase of it writes, and a host that waits. -/
structure Carried (s t : State) : Prop where
  noReset : t.noReset = true
  params : t.params = s.params
  opc : t.opc = s.opc
  inited : t.inited = s.inited
  disp : t.disp = s.disp
  host : t.host = s.host

theorem BusyOf.opc {s u : State} (h : BusyOf s u) : u.opc = s.opc := by
  cases h <;> rfl

theorem Carried.endTick {s r u : State} (ho : s.opc ≠ .init) (hh : hostNext false s.host = s.host) (h : Carried s r)
    (hb : BusyOf r u) : Carried s (endTick r u) where
  noReset := noReset_of_env_drop 1 h.noReset (by rw [endTick_env, hb.env, List.drop_one])
  params := hb.ghostsKept.1.trans h.params
  opc := hb.opc.trans h.opc
  inited := by
    obtain ⟨hsame, -⟩ | ⟨-, -, hinit, -⟩ := hb.mode
    · exact hsame.trans h.inited
    · exact absurd (h.opc.symm.trans hinit) ho
  disp := hb.disp.trans h.disp
  host := by rw [endTick_of_busy r u hb.ph_ne_idle, hb.host, h.host, hh]

/-- An operation other than `INIT` runs to the idle engine and carries what it does not write (R33, R154). -/
theorem carried_to_idle {s : State} (hn : s.noReset = true) (ho : s.opc ≠ .init) (hh : hostNext false s.host = s.host) :
    ∃ t, runTicks s.ticksLeft s = .next t ∧ t.ph = .idle ∧ Carried s t := by
  obtain ⟨⟨t, hrun, hidle⟩, -⟩ := everyOperationEnds s hn
  refine ⟨t, hrun, hidle, ?_⟩
  exact kept_of_busyRun (P := Carried s) (fun r u hb h => h.endTick ho hh hb) hn le_rfl ⟨hn, rfl, rfl, rfl, rfl, rfl⟩ hrun

/-- The run of an `S.CLEAR` called on an idle, ready engine, failing writes or not (R184, R167). -/
theorem runTicks_of_clearCall {s : State} {rest : List HostAct} (hn : s.noReset = true) (hi : s.ph = .idle)
    (hd : s.inited = true) (hh : s.host = .call .clear :: rest) (hwaits : hostNext false rest = rest) :
    ∃ t, runTicks (2 * s.params.tPw + 2 * s.params.tSettle + s.params.tLong + 14) s = .next t ∧ t.ph = .idle ∧
      Carried ((acceptByte .clear false s.params.clearCode s).elapsed 1 rest) t := by
  have hticks : 2 * s.params.tPw + 2 * s.params.tSettle + s.params.tLong + 14 =
      (acceptByte .clear false s.params.clearCode s).ticksLeft + 1 := by
    rw [ticksLeft_acceptByte, pulseTicks, waitTicks, tailTicks, if_pos rfl]
    omega
  rw [hticks, runTicks_succ _ s _ (step_of_clearCall (rstIn_of_noReset hn) hi hd hh)]
  exact carried_to_idle (s := (acceptByte .clear false s.params.clearCode s).elapsed 1 rest) (noReset_of_env_drop 1 hn rfl) nofun hwaits

/-- Settles O54: the display call waits while the clear runs, which leaves `DISP` alone, and then begins; and so it does where both requests
are dropped. -/
theorem clearThenDisplayLeavesAllOn : Obligations.ClearThenDisplayLeavesAllOn := by
  intro s rest hn hi hh
  refine ⟨fun hd => ?_, fun hd => ?_⟩
  · have hclear := step_of_clearCall (rstIn_of_noReset hn) hi hd hh
    obtain ⟨t, hrun, hidle, ht⟩ := runTicks_of_clearCall hn hi hd hh rfl
    have hdisplay := step_of_displayCall (rstIn_of_noReset ht.noReset) hidle (ht.inited.trans hd) ht.host
    have hbyte := congrArg (displayControlByte · true true true) ht.params
    exact ⟨⟨_, hclear, rfl, rfl⟩, t, _, hrun, hidle, ht.disp, ht.host, hdisplay, rfl, rfl, hbyte⟩
  · have hclear := step_of_droppedCall (rstIn_of_noReset hn) hi hh rfl rfl nofun hd
    have hr : (State.elapsed { s with seqErr := true } 1 (.call (.display true true true) :: rest)).rstIn = false :=
      rstIn_of_noReset (noReset_of_env_drop 1 hn rfl)
    exact ⟨_, _, hclear, rfl, rfl, rfl, step_of_droppedCall hr hi rfl rfl rfl nofun hd, rfl, hi⟩

end Sys2Proof.Machine
end

section
/-! PROOFS. The causes (R201 to R213): what each of them finds on the port or on a line when it sets its flag (R110, R207, R208), and that
none of them stops the engine (R204, R213). -/

namespace Sys2Proof.Machine

/-! ### A word that is dropped -/

/-- Settles O11: the request's meaning sets the flag, and the tick that runs it consumes the word. -/
theorem requestBeforeInitIsDropped : Obligations.RequestBeforeInitIsDropped := by
  intro s w rest i hr hi hd hh hw hne
  have hdrop : exec i s = .next { s with seqErr := true } := exec_of_unready hi hd (isRequest_of_decodeRequest hw) hne
  obtain ⟨t, hexec, hstep⟩ := stepRunsTheOfferedRequest s w rest i hr hi hh hw
  cases hdrop.symm.trans hexec
  rw [latched_of_steady s { s with seqErr := true } (.inr rfl)] at hstep
  exact ⟨hdrop, hstep⟩

/-- Settles O12: nothing is fetched, phase `IDLE` sets the flag, and reading the port consumes the word. -/
theorem illegalWordIsDropped : Obligations.IllegalWordIsDropped := by
  intro s w rest why hr hi hh hw
  have hs : sessionCalls s = s := sessionCalls_of_word s w rest hh
  obtain ⟨hvalid, hword, hnext⟩ : s.reqValid = true ∧ s.reqWord = w ∧ hostNext true s.host = rest := by
    rcases hh with hh | hh <;> simp [State.reqValid, State.reqWord, hostNext, hh]
  have hq : requestAt (sessionCalls s) = none := by simp [hs, requestAt, hword, hw, accepted]
  have ht : idleTick s = { s with illReq := true } := by simp [idleTick, hvalid, hword, hw, raise]
  rw [step_of_no_request s hr hi hq, hs, ht, endTick_of_idle s _ hi, latched_of_steady s { s with illReq := true } (.inr rfl), hnext]

/-! ### Nothing stops the engine -/

theorem step_next (s : State) : ∃ t, step s = .next t := by
  cases hr : s.rstIn with
  | true => exact ⟨_, step_of_rst s hr⟩
  | false =>
    by_cases hi : s.ph = .idle
    · cases hq : requestAt (sessionCalls s) with
      | none => exact ⟨_, step_of_no_request s hr hi hq⟩
      | some i =>
        obtain ⟨u, hu⟩ := exec_next i (sessionCalls s)
        exact ⟨endTick (sessionCalls s) u, by rw [step_of_request s i hr hq, hu]; rfl⟩
    · exact ⟨_, step_of_busy s hr hi⟩

/-- Settles O42. -/
theorem nothingStopsTheEngine : Obligations.NothingStopsTheEngine :=
  ⟨step_next, exec_next⟩

/-! ### What sets each flag -/

/-- The calls that begin touch no flag, and not the mode. -/
theorem sessionCalls_flags (s : State) :
    (sessionCalls s).seqErr = s.seqErr ∧ (sessionCalls s).illReq = s.illReq ∧ (sessionCalls s).lineErr = s.lineErr ∧
    (sessionCalls s).inited = s.inited := by
  obtain ⟨host, disp, hs⟩ := sessionCalls_eq s
  rw [hs]
  exact ⟨rfl, rfl, rfl, rfl⟩

/-- A request that is run is a legal word on the port (R32). -/
theorem port_of_requestAt {s : State} {i : Instr} (h : requestAt s = some i) : s.reqValid = true ∧ decodeRequest s.reqWord = .ok i := by
  unfold requestAt at h
  split at h
  · next hc => exact ⟨hc.2, accepted_some h⟩
  · cases h

/-- The lines that a phase writes (R28, R113 to R118). -/
def Phase.writes : Phase → List Line
  | .rsw => [.rs]
  | .dw => [.d4, .d5, .d6, .d7]
  | .enh | .enl => [.en]
  | .idle | .pre | .pw | .gap | .long => []

theorem writes_of_waits {p : Phase} (h : p.waits = true) : p.writes = [] := by
  cases p with
  | idle | pre | pw | gap | long => rfl
  | rsw | dw | enh | enl => cases h

/-- A failing write takes a machine that can fail and a bit of `wfail` (R110). -/
theorem wfailIn_of_writeFails {s : State} {l : Line} (h : s.writeFails l = true) : s.params.hasWfail = true ∧ s.wfailIn ≠ 0#6 := by
  obtain ⟨hcan, hbit⟩ := Bool.and_eq_true_iff.mp h
  exact ⟨hcan, fun h0 => by simp [h0] at hbit⟩

/-- The engine's busy step raises no cause but the failing write of a line of its phase (R110). -/
theorem BusyOf.flags {s u : State} (h : BusyOf s u) :
    u.seqErr = s.seqErr ∧ u.illReq = s.illReq ∧ u.lineErr = (s.lineErr || s.ph.writes.any s.writeFails) := by
  cases h with
  | count hw _ => exact ⟨rfl, rfl, by simp [writes_of_waits hw]⟩
  | select hp | drive hp | rise hp | fall hp => exact ⟨rfl, rfl, by simp [hp, Phase.writes, Bool.or_assoc]⟩
  | preEnds hp | pwEnds hp | nextHandshake hp | functionSet hp | lowHalf hp | longBegins hp | initEnds hp | byteEnds hp
  | longEnds hp => exact ⟨rfl, rfl, by simp [hp, Phase.writes]⟩

/-- A legal request raises at most `SequenceError`, and that only where it is not `INIT` and `INITED = 0` (R207). -/
theorem AskedOf.flags {s u : State} {i : Instr} (h : AskedOf s i u) :
    (u.seqErr = s.seqErr ∨ s.inited = false ∧ ∀ n f, i ≠ .init n f) ∧ u.illReq = s.illReq ∧ u.lineErr = s.lineErr := by
  cases h with
  | dropped _ hne hd => exact ⟨.inr ⟨hd, hne⟩, rfl, rfl⟩
  | _ => exact ⟨.inl rfl, rfl, rfl⟩

/-- Phase `IDLE`'s own step raises at most `IllegalRequest`, and that only at an illegal word (R208). -/
theorem idleTick_flags (s : State) :
    (idleTick s).seqErr = s.seqErr ∧
    ((idleTick s).illReq = s.illReq ∨ s.reqValid = true ∧ ∃ why, decodeRequest s.reqWord = .error why) ∧
    (idleTick s).lineErr = s.lineErr := by
  unfold idleTick
  split
  · next hv =>
    split
    · next why hw => exact ⟨rfl, .inr ⟨hv, why, hw⟩, rfl⟩
    · exact ⟨rfl, .inl rfl, rfl⟩
  · exact ⟨rfl, .inl rfl, rfl⟩

/-- What a tick without reset can do to the flags: each stays as it was, or its own cause is there (R201). -/
theorem flags_of_step {s t : State} (hr : s.rstIn = false) (h : step s = .next t) :
    (t.seqErr = s.seqErr ∨ s.ph = .idle ∧ s.inited = false ∧ (sessionCalls s).reqValid = true ∧
      ∃ i, decodeRequest (sessionCalls s).reqWord = .ok i ∧ ∀ n f, i ≠ .init n f) ∧
    (t.illReq = s.illReq ∨ s.ph = .idle ∧ (sessionCalls s).reqValid = true ∧
      ∃ why, decodeRequest (sessionCalls s).reqWord = .error why) ∧
    t.lineErr = (s.lineErr || s.ph.writes.any s.writeFails) := by
  obtain ⟨hseq, hill, hline, hmode⟩ := sessionCalls_flags s
  cases tickOf_of_step h with
  | reset hrst => exact absurd hrst (by simp [hr])
  | busy _ hb =>
    obtain ⟨useq, uill, uline⟩ := (busyOf_engineTick hb).flags
    exact ⟨.inl useq, .inl uill, uline⟩
  | unasked _ hi _ =>
    obtain ⟨useq, uill, uline⟩ := idleTick_flags (sessionCalls s)
    exact ⟨.inl (useq.trans hseq), uill.imp (·.trans hill) (⟨hi, ·⟩), by simp [uline, hline, hi, Phase.writes]⟩
  | asked i u _ hi hq hu =>
    obtain ⟨useq, uill, uline⟩ := (askedOf_of_exec hq hu).flags
    obtain ⟨hvalid, hword⟩ := port_of_requestAt hq
    exact ⟨useq.imp (·.trans hseq) fun ⟨hd, hne⟩ => ⟨hi, hmode.symm.trans hd, hvalid, i, hword, hne⟩, .inl (uill.trans hill),
      by simp [uline, hline, hi, Phase.writes]⟩

/-- Settles O44: a flag that is set now and was not before has changed, so its cause is there; a failing write is one of the phase's own. -/
theorem flagsAreSetOnlyByTheirCauses : Obligations.FlagsAreSetOnlyByTheirCauses := by
  intro s t hr h
  obtain ⟨hseq, hill, hline⟩ := flags_of_step hr h
  refine ⟨fun h0 h1 => hseq.resolve_left (by simp [h0, h1]), fun h0 h1 => hill.resolve_left (by simp [h0, h1]), fun h0 h1 => ?_⟩
  obtain ⟨l, hl, hf⟩ : ∃ l ∈ s.ph.writes, s.writeFails l = true := by simpa [h0, h1] using hline
  obtain ⟨hcan, hbit⟩ := wfailIn_of_writeFails hf
  refine ⟨hcan, hbit, ?_⟩
  cases hp : s.ph with
  | rsw =>
    obtain rfl : l = .rs := by simpa [hp, Phase.writes] using hl
    exact .inl ⟨rfl, hf⟩
  | dw => exact .inr (.inl ⟨rfl, l, by simpa [hp, Phase.writes] using hl, hf⟩)
  | enh | enl =>
    obtain rfl : l = .en := by simpa [hp, Phase.writes] using hl
    exact .inr (.inr ⟨by simp, hf⟩)
  | idle | pre | pw | gap | long => simp [hp, Phase.writes] at hl

end Sys2Proof.Machine
end

section
/-! PROOFS. Failing writes and the engine's own course (R205): what a failing write can change is blanked out of the state
(`State.course`), a line write then changes nothing, and so no phase depends on which writes fail. -/

namespace Sys2Proof.Machine

/-- `TRACE` without its `LOG` events keeps this one. -/
def Event.unlogged : Event → Bool
  | .log _ => false
  | _ => true

/-- The engine's own course: the state with all that failing writes can change blanked out (R205, R110), and the inputs that say which
writes fail. -/
def State.course (s : State) : State :=
  { s with
    rs := false, en := false, d4 := false, d5 := false, d6 := false, d7 := false, lineErr := false
    trace := s.trace.filter Event.unlogged, lat := [], env := [], draws := 0 }

/-- The state with other `rst` and `wfail` inputs. -/
def State.withEnv (e : List EnvTick) (s : State) : State := { s with env := e }

/-- `f` neither reads nor writes those inputs. -/
def IgnoresEnv (f : State → State) : Prop := ∀ s e, f (s.withEnv e) = (f s).withEnv e

/-- The inputs that say which writes fail are no part of the course. -/
theorem IgnoresEnv.course {f : State → State} (hf : IgnoresEnv f) (s : State) (e : List EnvTick) :
    (f (s.withEnv e)).course = (f s).course := by
  rw [hf]
  rfl

/-! ### Line writes -/

theorem filter_unlogged_logs (s : State) (ls : List Line) : (s.logs ls).filter Event.unlogged = [] := by
  have hlog : Event.unlogged ∘ Event.log = fun _ => false := rfl
  simp [State.logs, List.filter_map, hlog]

/-- A line write, failing or not, is no part of the course (R110). -/
theorem pinWrite_course (l : Line) (v : Bool) (s : State) : (pinWrite l v s).course = s.course := by
  obtain ⟨x, -, h⟩ := pinWrite_logs l v s
  rw [h]
  cases l <;> simp [State.course, setLine, filter_unlogged_logs]

theorem setRegisterSelect_course (b : Bool) (s : State) : (setRegisterSelect b s).course = (emit (.rs b) s).course :=
  pinWrite_course _ _ _

theorem setEnable_course (b : Bool) (s : State) : (setEnable b s).course = (emit (.en b) s).course :=
  pinWrite_course _ _ _

theorem setDataNibble_course (n : Nibble) (s : State) : (setDataNibble n s).course = (emit (.data n) s).course := by
  simp only [setDataNibble, pinWrite_course]

/-- Entering a wait phase is a part of the course (R35). -/
theorem enterWait_course (k : WaitKind) (p : Phase) (s : State) : (enterWait k p s).course = enterWait k p s.course := by
  simp [State.course, enterWait, emit, Event.unlogged]

/-! ### The phases -/

theorem waitStep_ignoresEnv {leave : State → State} (hl : IgnoresEnv leave) : IgnoresEnv (waitStep leave) := by
  intro s e
  by_cases hd : s.dly = 0
  · rw [waitStep_leaving leave s hd, waitStep_leaving leave (s.withEnv e) hd, hl]
  · rw [waitStep_counting leave s hd, waitStep_counting leave (s.withEnv e) hd]
    rfl

theorem endOfByte_ignoresEnv : IgnoresEnv endOfByte := by
  intro s e
  have hopc : (s.withEnv e).opc = s.opc := rfl
  unfold endOfByte
  rw [hopc]
  split <;> rfl

theorem exitGap_ignoresEnv : IgnoresEnv exitGap := by
  intro s e
  have hseq : (s.withEnv e).seq = s.seq := rfl
  have hnib : (s.withEnv e).nib = s.nib := rfl
  unfold exitGap
  rw [hseq, hnib]
  split_ifs
  · rfl
  · rfl
  · rfl
  · exact endOfByte_ignoresEnv s e

/-- A busy step's course does not depend on which writes fail (R205): the phases that write lines see it only in the line writes, the wait
phases not at all. -/
theorem engineTick_course {s : State} (hb : s.ph ≠ .idle) (e : List EnvTick) :
    (engineTick (s.withEnv e)).course = (engineTick s).course := by
  have hph : (s.withEnv e).ph = s.ph := rfl
  unfold engineTick
  rw [hph]
  cases hp : s.ph with
  | idle => exact absurd hp hb
  | pre | pw | long => exact (waitStep_ignoresEnv fun _ _ => rfl).course s e
  | gap => exact (waitStep_ignoresEnv exitGap_ignoresEnv).course s e
  | rsw =>
    have h := (setRegisterSelect_course s.rsq (s.withEnv e)).trans (setRegisterSelect_course s.rsq s).symm
    exact congrArg (fun t : State => { t with ph := Phase.dw }) h
  | dw =>
    have h := (setDataNibble_course s.cur (s.withEnv e)).trans (setDataNibble_course s.cur s).symm
    exact congrArg (fun t : State => { t with ph := Phase.enh }) h
  | enh =>
    simp only [enhTick, enterWait_course, setEnable_course]
    rfl
  | enl =>
    simp only [enlTick, enterWait_course, setEnable_course]
    rfl

/-! ### Idle ticks -/

theorem sessionCalls_ignoresEnv : IgnoresEnv sessionCalls := by
  intro s e
  have hph : (s.withEnv e).ph = s.ph := rfl
  unfold sessionCalls
  rw [hph]
  split <;> rfl

theorem idleTick_ignoresEnv : IgnoresEnv idleTick := by
  intro s e
  have hvalid : (s.withEnv e).reqValid = s.reqValid := rfl
  have hword : (s.withEnv e).reqWord = s.reqWord := rfl
  unfold idleTick
  rw [hvalid, hword]
  split
  · split <;> rfl
  · rfl

/-- The mode check (R215) does not look at the lines. -/
theorem whenReady_ignoresEnv {accept : State → State} (ha : IgnoresEnv accept) : IgnoresEnv (whenReady accept) := by
  intro s e
  have hmode : (s.withEnv e).inited = s.inited := rfl
  unfold whenReady
  rw [hmode]
  split
  · exact ha s e
  · rfl

theorem whenIdle_withEnv {examine : State → State} (h : IgnoresEnv examine) {s : State} (hi : s.ph = .idle) (e : List EnvTick) :
    whenIdle examine (s.withEnv e) = (whenIdle examine s).withEnv e := by
  rw [whenIdle_of_idle _ s hi, whenIdle_of_idle _ (s.withEnv e) hi, h]

/-- A request on the port of an idle engine is examined whichever writes fail (R32). -/
theorem exec_request_withEnv {s u : State} {i : Instr} (hi : s.ph = .idle) (hq : i.isRequest = true) (e : List EnvTick)
    (h : exec i s = .next u) : exec i (s.withEnv e) = .next (u.withEnv e) := by
  match i, hq with
  | .init _ _, _ =>
    cases h
    exact congrArg _ (whenIdle_withEnv (fun _ _ => rfl) hi e)
  | .cmd _, _ | .data _, _ | .clear, _ | .dispctl _ _ _, _ =>
    cases h
    exact congrArg _ (whenIdle_withEnv (whenReady_ignoresEnv fun _ _ => rfl) hi e)

/-! ### The whole tick -/

theorem endTick_course {a b u t : State} (hph : b.ph = a.ph) (h : u.course = t.course) : (endTick b u).course = (endTick a t).course := by
  have hend : ∀ x y : State,
      (endTick x y).course = { y.course with now := y.course.now + 1, host := hostNext (x.ph == .idle) y.course.host } :=
    fun _ _ => rfl
  rw [hend, hend, hph, h]

/-- Two ticks without reset that differ in which writes fail take the same course (R205). -/
theorem course_of_step {s t u : State} {e : List EnvTick} (hr : s.rstIn = false) (hre : (s.withEnv e).rstIn = false)
    (ht : step s = .next t) (hu : step (s.withEnv e) = .next u) : u.course = t.course := by
  have hs : sessionCalls (s.withEnv e) = (sessionCalls s).withEnv e := sessionCalls_ignoresEnv s e
  cases tickOf_of_step ht with
  | reset hrst => exact absurd hrst (by simp [hr])
  | busy _ hb =>
    cases (step_of_busy (s.withEnv e) hre hb).symm.trans hu
    exact endTick_course rfl (engineTick_course hb e)
  | unasked _ hi hq =>
    cases (step_of_no_request (s.withEnv e) hre hi (by rw [hs]; exact hq)).symm.trans hu
    rw [hs, idleTick_ignoresEnv]
    exact endTick_course rfl rfl
  | asked i v _ hi hq hv =>
    obtain ⟨hidle, hreq⟩ := idle_and_isRequest_of_requestAt hq
    rw [step_of_request (s.withEnv e) i hre (by rw [hs]; exact hq), hs, exec_request_withEnv hidle hreq e hv] at hu
    cases hu
    exact endTick_course rfl rfl

/-- Settles O49: the course holds every register and ghost that the statement names. -/
theorem failuresDoNotSteerTheEngine : Obligations.FailuresDoNotSteerTheEngine := by
  intro s t u e hr hre ht hu
  have read : ∀ {α : Type} (register : State → α), register u.course = register t.course :=
    fun register => congrArg register (course_of_step hr hre ht hu)
  exact ⟨read State.ph, read State.opc, read State.seq, read State.nib, read State.byte, read State.rsq, read State.argN,
    read State.argF, read State.dly, read State.inited, read State.cfgN, read State.cfgF, read State.seqErr, read State.illReq,
    read State.disp, read State.host, read State.now, read State.trace⟩

end Sys2Proof.Machine
end

section
/-! PROOFS. The tick with `rst` asserted. -/

namespace Sys2Proof.Machine

/-- Settles O50: reset beats everything (R212), and `powerCycle` written out is R50's table with the inputs moved on. -/
theorem resetTickIsThePowerCycle : Obligations.ResetTickIsThePowerCycle :=
  fun s hr => step_of_rst s hr

end Sys2Proof.Machine
end
